-- ==== Sys2Proof/Word.lean ====
section
/-!
DEFINITION. The plain data types every other file uses: the scalar word, the lane, the registers of a lane group as
bits (R5, R8), and the sparse table keyed by a number in which the model holds register files and other numbered
storage. Only the plainest operations stand here.
-/

namespace Sys2Proof

/-- A scalar register: 64 bits (R99). -/
abbrev Word := BitVec 64
/-- A byte. -/
abbrev Byte := BitVec 8
/-- One lane: 32 bits (R5). -/
abbrev Lane := BitVec 32
/-- A vector register of one group: 128 bytes, lane l in bits [32l+31:32l] (Table 0.3). -/
abbrev VReg := BitVec 1024
/-- An accumulator tile: 16 by 16 words, word 16r + c in bits [32(16r+c)+31 : 32(16r+c)] (Table 0.3). -/
abbrev Tile := BitVec 8192
/-- A lane mask: bit l is lane l (R153). -/
abbrev LaneMask := BitVec 32
/-- A bundle: syllable i in bits [32i+31:32i] (R70). -/
abbrev Bundle := BitVec 256
/-- One entry of the random-bit queue: the word of core lane l in bits [32l+31:32l] (R58). -/
abbrev RbqEntry := BitVec 8192

/-- Numbered storage held sparsely: a list of (number, contents), numbers rising. -/
abbrev Tbl (α : Type) := List (Nat × α)

/-- The contents at number `k`, `d` where nothing is listed. -/
def Tbl.get {α : Type} : Tbl α → Nat → α → α
  | [], _, d => d
  | (j, a) :: t, k, d => if j = k then a else Tbl.get t k d

/-- The contents at number `k`, if listed. -/
def Tbl.find {α : Type} : Tbl α → Nat → Option α
  | [], _ => none
  | (j, a) :: t, k => if j = k then some a else Tbl.find t k

/-- Write number `k`. -/
def Tbl.set {α : Type} : Tbl α → Nat → α → Tbl α
  | [], k, v => [(k, v)]
  | (j, a) :: t, k, v =>
    if k < j then (k, v) :: (j, a) :: t
    else if j = k then (k, v) :: t
    else (j, a) :: Tbl.set t k v

/-- Remove number `k`. -/
def Tbl.erase {α : Type} (t : Tbl α) (k : Nat) : Tbl α :=
  t.filter (fun p => p.1 != k)

end Sys2Proof
end

