-- ==== Sys2Proof/Config.lean ====
section
/-!
DEFINITION. What the part fixes (sizes, latencies, delays the spec states) and the free values: constants with no body
for what the spec leaves open, applied to the counter `State.free` or to the operands they depend on. Nothing can be
proved about a particular value of a free value.
-/

namespace Sys2Proof.Config

/-- Cycles after issue at which a result of class Ck is usable (R20, Table 1.2); C0 has none. -/
def latency : Nat → Nat
  | 0 => 0 | 1 => 1 | 2 => 2 | 3 => 4 | 4 => 6 | 5 => 8 | 6 => 12 | _ => 16

/-- R13, Table 1.1: the sums of the declared windows that a core's four contexts may reach. -/
def sumVregs : Nat := 208
def sumTiles : Nat := 12
def sumHandles : Nat := 24
def sumLatches : Nat := 16
def sumQueues : Nat := 8
/-- R13, Table 1.1: physical vector registers and tiles of a group. -/
def physVregs : Nat := 256
def physTiles : Nat := 16

/-- R31, R35: limits of a region. -/
def storeEntries : Nat := 256
def queueEntries : Nat := 32
def latchEntries : Nat := 32
def rbqEntries : Nat := 4
def rbqRetained : Nat := 8
def ldqEntries : Nat := 16

/-- R39: cycles a context may hold the issue slot among equals. -/
def holdCycles : Nat := 65536
/-- R186: commands an engine context's queue holds. -/
def engineQueue : Nat := 32
/-- R259: range-scoreboard entries of a core. -/
def rangeEntries : Nat := 16
/-- R142: waiters a unit, an L2 slice and a home record. -/
def unitWaiters : Nat := 16
def sliceWaiters : Nat := 64
def homeWaiters : Nat := 4096
/-- R151: cycles until an `l1inv` completes. -/
def l1invCycles : Nat := 16
/-- R239, Table 0.3: lines of a core's L1 (256 KiB of 128 bytes). -/
def l1Lines : Nat := 2048
/-- R2, R239: ways of a set of L2, and sets of an L2 slice (64 MiB of 128-byte lines in 256 slices of 16 ways). -/
def l2Ways : Nat := 16
def l2Sets : Nat := 128
/-- R347: translations a micro-TLB holds; sets and ways of a die TLB (8,192 entries). -/
def microTlb : Nat := 64
def dieTlbSets : Nat := 1024
def dieTlbWays : Nat := 8
/-- Table 0.3: bundles of a core's IM, and bundles the loop buffer holds (R29). -/
def imBundles : Nat := 8192
def loopBuffer : Nat := 256

/-- R225, Table 8.3: cycles of the arithmetic clock from the last arrival to completion of a barrier of a core (1), a quad (2) or a
die (3); a lane completes at once. -/
def barrierCycles : Nat → Nat
  | 0 => 0 | 1 => 4 | 2 => 12 | _ => 48

/-- R225, Table 8.3: ticks of 1/3 ns from the last arrival to completion of a barrier of a package (4) or a pod (5). -/
def barrierTicks : Nat → Nat
  | 4 => 900 | _ => 7500

/-- R235: ticks from a sluice decision to the swap: 64 cycles in a package, 4 µs in a pod. -/
def sluiceTicks (pod : Bool) : Nat := if pod then 12000 else 128
/-- R229: ticks of a steal round, 2,000 ns. -/
def stealTicks : Nat := 6000
/-- R232: ticks a gang preparation may take, 10 ms. -/
def gangTicks : Nat := 30000000
/-- R323: ticks of a firmware frame, 2.048 µs. -/
def frameTicks : Nat := 6144
/-- R323: ticks of a polling slot: 16 Sceix cycles. -/
def slotTicks : Nat := 48
/-- R142, R350: ticks between re-sent ticket requests and between re-reads of a migrating leaf, 1 µs. -/
def resendTicks : Nat := 3000
/-- R278, R283: µs selected by a TIMEOUT of 0. -/
def defaultTimeoutUs : Nat := 10000
/-- R319, Table 8.4: the default one-shot threshold. -/
def oneshotDefault : Nat := 262144
/-- R371: arithmetic cycles over which POWER_MW is averaged, 1 ms. -/
def powerCycles : Nat := 1500000
/-- R318: commands the trigger table holds. -/
def triggerEntries : Nat := 4096
/-- R321: active queue slots. -/
def activeSlots : Nat := 1024
/-- R278: transactions held in a package; R279: bytes an MSC buffers. -/
def heldTransactions : Nat := 64
def stagingBytes : Nat := 33554432
/-- R289: windows of the pod. -/
def podWindows : Nat := 256
/-- R369: records of the repair log. -/
def repairRecords : Nat := 2048

/-- The packages of the pod at reset: one, with ID 0. -/
def podPackages : List Nat := [0]

/-- Free values (no body): a byte of a signature of the identity key (R367), for its package, its leaf and the byte's number. -/
opaque freeSignature : Nat → Nat → Nat → Byte
/-- R368: a byte of a digest of a package: 0 of its first stage, 1 of its base configuration record, 2 the head of its empty repair
chain, 3 + n of the firmware image that step n staged (3: of the boot's image). -/
opaque freeDigest : Nat → Nat → Nat → Byte
/-- R369: the digest of a repair record, from the previous record's digest and the record's action, operands and die. -/
opaque freeChain : BitVec 256 → Nat → Nat → Nat → Nat → BitVec 256
/-- R372: what the DETAIL of a refused request holds above its KIND, for a reason. -/
opaque freeReason : Nat → BitVec 56
/-- R356, R369: the row of a base die in which an HBM address of it lies, as 2^20 times the bank, and the row. -/
opaque freeRow : Nat → Nat
/-- R287: which of the ports in service carries a collective. -/
opaque freePort : Nat → Nat
/-- R371: flits that an Otcor port carries or sends again in a frame. -/
opaque freeFlits : Nat → BitVec 16
/-- Whether the signed image that a firmware load or a boot finds is good (R325, R365): 0 good, else the failure code. -/
opaque freeVerdict : Nat → BitVec 8
/-- R330: by how much the PTP clock of a package sets its rate, for the step with a number: parts per billion above −200,000, modulo
400,001. -/
opaque freePace : Nat → BitVec 64
/-- R330: the bytes of the delay request that the PTP clock of a package sends, for the step with a number. -/
opaque freeDelayRequest : Nat → List Byte
/-- The version of the firmware image that a load brings (R325). -/
opaque freeVersion : Nat → BitVec 64
/-- The security version that the image with a version carries (R366). -/
opaque freeSecurity : BitVec 64 → BitVec 32
/-- The package power in mW and a sensor's temperature as telemetry reads them (R371). -/
opaque freeReading : Nat → BitVec 64
/-- An event code that the spec does not give (R356). -/
opaque freeCode : Nat → BitVec 16
/-- Whether a physical core passes its self-test (R354). -/
opaque freeSelfTest : Nat → Bool
/-- An operand of a service request that the driver wrote too early (R333). -/
opaque freeOperand : Nat → BitVec 64
/-- R239: the set of an L2 slice, and of an MSC, that a line lies in, and of an MSC the binary logarithm of the number of its sets:
the spec gives the L2's slice and its ways, and of an MSC its size alone. -/
opaque freeL2Set : Nat → Nat
opaque freeMscSet : Nat → Nat
opaque freeMscLog : Nat

/-- R2, R239: the lines of an MSC (512 MiB of 128 bytes), its sets and the ways of a set (log entry 16). -/
def mscLines : Nat := 4194304
def mscSets : Nat := 2 ^ (freeMscLog % 23)
def mscWays : Nat := mscLines / mscSets - 1 + 1
/-- R347: the set of a die TLB that a translation lies in, from its PASID, page number and page size. -/
opaque freeTlbSet : Nat → Nat → Nat → Nat
/-- A byte of a register that waits for a load whose value no rule gives (R36, R131, R263). -/
opaque freeByte : Nat → Byte

end Sys2Proof.Config
end

