-- ==== Sys2Proof/Syntax.lean ====
section
/-!
DEFINITION. The instruction syntax of the PX9-A: one constructor per row of spec/opcode_table.json.
Rows of a slot syllable carry the fields of their encoding (R73, Tables 3.3 to 3.5 and R79); the operations of a
group-table entry carry the entry's fields (R80). The remaining rows are steps of the machine (the core's own timed
steps, engines, work distribution, host interface, fleet operation): the table gives them no encoding and no field, and
the place where one happens stands in the state (`State.ev`).
-/

namespace Sys2Proof

/-- The fields of a 64-bit group-table entry beside its OP (R80, Table 3.6). -/
structure Entry where
  cls  : BitVec 3
  fmt  : BitVec 3
  d    : BitVec 6
  a    : BitVec 6
  b    : BitVec 6
  c    : BitVec 6
  mask : BitVec 3
  bank : BitVec 3
  mod  : BitVec 22
  deriving DecidableEq, Repr

/-- Every row of the opcode table (R11 to R375). -/
inductive Instr where
  -- S-slot forms (R76)
  /-- R76: S-slot no-operation. -/
  | nop
  /-- R100: D := A + B, wrapping. -/
  | add (d a b : BitVec 5)
  /-- R100: D := A − B. -/
  | sub (d a b : BitVec 5)
  /-- R100: Low 64 bits of A × B. -/
  | mul (d a b : BitVec 5)
  /-- R100: High 64 bits of the signed product. -/
  | mulh (d a b : BitVec 5)
  /-- R100: High 64 bits of the unsigned product. -/
  | mulhn (d a b : BitVec 5)
  /-- R43: Signed quotient. -/
  | div (d a b : BitVec 5)
  /-- R43: Unsigned quotient. -/
  | divn (d a b : BitVec 5)
  /-- R43: Signed remainder. -/
  | rem (d a b : BitVec 5)
  /-- R43: Unsigned remainder. -/
  | remn (d a b : BitVec 5)
  /-- R100: Bitwise AND. -/
  | and (d a b : BitVec 5)
  /-- R100: Bitwise OR. -/
  | or (d a b : BitVec 5)
  /-- R100: Bitwise XOR. -/
  | xor (d a b : BitVec 5)
  /-- R100: A AND NOT B. -/
  | andn (d a b : BitVec 5)
  /-- R100: Shift left by B[5:0]. -/
  | shl (d a b : BitVec 5)
  /-- R100: Logical shift right by B[5:0]. -/
  | shrl (d a b : BitVec 5)
  /-- R100: Arithmetic shift right by B[5:0]. -/
  | shra (d a b : BitVec 5)
  /-- R100: Rotate left by B[5:0]. -/
  | rotl (d a b : BitVec 5)
  /-- R100: Signed minimum. -/
  | min (d a b : BitVec 5)
  /-- R100: Signed maximum. -/
  | max (d a b : BitVec 5)
  /-- R100: Unsigned minimum. -/
  | minn (d a b : BitVec 5)
  /-- R100: Unsigned maximum. -/
  | maxn (d a b : BitVec 5)
  /-- R100: Leading zeros of A. -/
  | clz (d a : BitVec 5)
  /-- R100: Trailing zeros of A. -/
  | ctz (d a : BitVec 5)
  /-- R100: Number of one bits of A. -/
  | popc (d a : BitVec 5)
  /-- R101: Add with carry in from pc and carry out to pk. -/
  | addx (d a b : BitVec 5) (k c : BitVec 3)
  /-- R101: D := p[c] ? A : B. -/
  | sel (d a b : BitVec 5) (c : BitVec 3)
  /-- R102: A + sext(IMM16). -/
  | addi (d a : BitVec 5) (i : BitVec 16)
  /-- R102: A AND zext(IMM16). -/
  | andi (d a : BitVec 5) (i : BitVec 16)
  /-- R102: A OR zext(IMM16). -/
  | ori (d a : BitVec 5) (i : BitVec 16)
  /-- R102: A XOR zext(IMM16). -/
  | xori (d a : BitVec 5) (i : BitVec 16)
  /-- R102: Shift left by IMM16[5:0]. -/
  | shli (d a : BitVec 5) (i : BitVec 6)
  /-- R102: Logical shift right by IMM16[5:0]. -/
  | shrli (d a : BitVec 5) (i : BitVec 6)
  /-- R102: Arithmetic shift right by IMM16[5:0]. -/
  | shrai (d a : BitVec 5) (i : BitVec 6)
  /-- R103: Load a sign-extended immediate or literal. -/
  | li (d : BitVec 5) (i : BitVec 16)
  /-- R103: Set the high 32 bits from the immediate or literal, keeping A[31:0]. -/
  | lih (d a : BitVec 5) (i : BitVec 16)
  /-- R104: Write a predicate with the condition of A against B. -/
  | cmpCc (p : BitVec 3) (a b : BitVec 5) (c : BitVec 4)
  /-- R104: Write a predicate with the condition of A against the literal. -/
  | cmpiCc (p : BitVec 3) (a : BitVec 5) (c : BitVec 4)
  /-- R105: Predicate AND. -/
  | pand (d a b : BitVec 3)
  /-- R105: Predicate OR. -/
  | por (d a b : BitVec 3)
  /-- R105: Predicate XOR. -/
  | pxor (d a b : BitVec 3)
  /-- R105: Predicate NOT. -/
  | pnot (d a : BitVec 3)
  /-- R106: Read a special register. -/
  | gets (d : BitVec 5) (n : BitVec 16)
  /-- R106: Write a special register. -/
  | puts (a : BitVec 5) (n : BitVec 16)
  /-- R108: PC-relative branch, optionally on a predicate. -/
  | br (p : BitVec 3) (n : BitVec 1) (o : BitVec 22)
  /-- R109: Branch to the bundle index in A. -/
  | bri (a : BitVec 5)
  /-- R108: PC-relative branch that writes s30 := PC + 1 when taken. -/
  | call (p : BitVec 3) (n : BitVec 1) (o : BitVec 22)
  /-- R109: Branch to A, counted as a return. -/
  | ret (a : BitVec 5)
  /-- R111: Start a loop level over a body with a count from a register or literal. -/
  | loop (l : BitVec 3) (a : BitVec 5) (f : BitVec 11)
  /-- R112: Start a loop level with a count acquired from a loop-count block. -/
  | loopm (l : BitVec 3) (a b : BitVec 5) (f : BitVec 11)
  /-- R113: Set a stride entry of a loop level. -/
  | lstride (d a : BitVec 5) (k : BitVec 2) (l : BitVec 3)
  /-- R116: Choose a capacity bucket from a dispatch table and branch to it. -/
  | dispatch (d a b : BitVec 5)
  /-- R117: Commit, wait for engine commands, requeue the continuation and go idle. -/
  | yield
  /-- R117: As yield, but the record is parked and handed to the driver. -/
  | yieldPark
  /-- R118: Commit, wait for engine commands, complete the work item and go idle. -/
  | exit
  /-- R119: Raise SW_TRAP with a code. -/
  | trap (c : BitVec 16)
  /-- R120: Block until a timeline counter reaches a threshold, acquire, and write NOT TERR to a predicate. -/
  | waitt (p : BitVec 3) (a : BitVec 5) (n : BitVec 3)
  /-- R121: Write scope entry N from a descriptor in memory. -/
  | scopeSet (n a : BitVec 5)
  /-- R122: Write scope entry N from the image's template. -/
  | scopeLoad (n : BitVec 5)
  /-- R124: Block until the launch's sluice, reporting the core's arrival and sampling its seal. -/
  | sluice
  -- A-slot forms (R77)
  /-- R129: Load a byte, sign-extended. -/
  | ldb (d b x : BitVec 5) (r : BitVec 2) (y : BitVec 1) (s : BitVec 5) (o : BitVec 3)
  /-- R129: Load a byte, zero-extended. -/
  | ldbn (d b x : BitVec 5) (r : BitVec 2) (y : BitVec 1) (s : BitVec 5) (o : BitVec 3)
  /-- R129: Load a halfword, sign-extended. -/
  | ldh (d b x : BitVec 5) (r : BitVec 2) (y : BitVec 1) (s : BitVec 5) (o : BitVec 3)
  /-- R129: Load a halfword, zero-extended. -/
  | ldhn (d b x : BitVec 5) (r : BitVec 2) (y : BitVec 1) (s : BitVec 5) (o : BitVec 3)
  /-- R129: Load a word, sign-extended. -/
  | ldw (d b x : BitVec 5) (r : BitVec 2) (y : BitVec 1) (s : BitVec 5) (o : BitVec 3)
  /-- R129: Load a word, zero-extended. -/
  | ldwn (d b x : BitVec 5) (r : BitVec 2) (y : BitVec 1) (s : BitVec 5) (o : BitVec 3)
  /-- R129: Load a doubleword. -/
  | ldd (d b x : BitVec 5) (r : BitVec 2) (y : BitVec 1) (s : BitVec 5) (o : BitVec 3)
  /-- R130: Store a byte. -/
  | stb (d b x : BitVec 5) (r : BitVec 2) (s : BitVec 5) (o : BitVec 3)
  /-- R130: Store a halfword. -/
  | sth (d b x : BitVec 5) (r : BitVec 2) (s : BitVec 5) (o : BitVec 3)
  /-- R130: Store a word. -/
  | stw (d b x : BitVec 5) (r : BitVec 2) (s : BitVec 5) (o : BitVec 3)
  /-- R130: Store a doubleword. -/
  | std (d b x : BitVec 5) (r : BitVec 2) (s : BitVec 5) (o : BitVec 3)
  /-- R135: When the tag is full, read the word and leave it full. -/
  | ldfull (d b x s : BitVec 5) (o : BitVec 3)
  /-- R135: When the tag is full, read the word and empty it. -/
  | ldtake (d b x s : BitVec 5) (o : BitVec 3)
  /-- R135: When the tag is empty, write the word and fill it. -/
  | stfill (d b x s : BitVec 5) (o : BitVec 3)
  /-- R135: Write the word and set its tag full. -/
  | stforce (d b x s : BitVec 5) (o : BitVec 3)
  /-- R135: Return the full/empty tag. -/
  | fetag (d b x : BitVec 5)
  /-- R135: Set the tag from sD[0]. -/
  | feset (d b x : BitVec 5)
  /-- R137: Atomic add that returns the old value. -/
  | atomAdd (d b x : BitVec 5) (z : BitVec 3) (s : BitVec 5) (o : BitVec 3)
  /-- R137: Atomic AND. -/
  | atomAnd (d b x : BitVec 5) (z : BitVec 3) (s : BitVec 5) (o : BitVec 3)
  /-- R137: Atomic OR. -/
  | atomOr (d b x : BitVec 5) (z : BitVec 3) (s : BitVec 5) (o : BitVec 3)
  /-- R137: Atomic XOR. -/
  | atomXor (d b x : BitVec 5) (z : BitVec 3) (s : BitVec 5) (o : BitVec 3)
  /-- R137: Atomic signed minimum. -/
  | atomMin (d b x : BitVec 5) (z : BitVec 3) (s : BitVec 5) (o : BitVec 3)
  /-- R137: Atomic signed maximum. -/
  | atomMax (d b x : BitVec 5) (z : BitVec 3) (s : BitVec 5) (o : BitVec 3)
  /-- R137: Atomic unsigned minimum. -/
  | atomMinn (d b x : BitVec 5) (z : BitVec 3) (s : BitVec 5) (o : BitVec 3)
  /-- R137: Atomic unsigned maximum. -/
  | atomMaxn (d b x : BitVec 5) (z : BitVec 3) (s : BitVec 5) (o : BitVec 3)
  /-- R137: Atomic swap. -/
  | atomSwap (d b x : BitVec 5) (z : BitVec 3) (s : BitVec 5) (o : BitVec 3)
  /-- R138: Atomic compare-and-swap of 32, 64 or 128 bits. -/
  | atomCas (d b x : BitVec 5) (z : BitVec 3) (s : BitVec 5) (o : BitVec 3)
  /-- R137: Atomic FP32 add. -/
  | atomFadd (d b x s : BitVec 5) (o : BitVec 3)
  /-- R137: Atomic FP32 minimum. -/
  | atomFmin (d b x s : BitVec 5) (o : BitVec 3)
  /-- R137: Atomic FP32 maximum. -/
  | atomFmax (d b x s : BitVec 5) (o : BitVec 3)
  /-- R137: Reduction add without return. -/
  | redAdd (b x : BitVec 5) (z : BitVec 3) (s : BitVec 5) (o : BitVec 3)
  /-- R137: Reduction AND. -/
  | redAnd (b x : BitVec 5) (z : BitVec 3) (s : BitVec 5) (o : BitVec 3)
  /-- R137: Reduction OR. -/
  | redOr (b x : BitVec 5) (z : BitVec 3) (s : BitVec 5) (o : BitVec 3)
  /-- R137: Reduction XOR. -/
  | redXor (b x : BitVec 5) (z : BitVec 3) (s : BitVec 5) (o : BitVec 3)
  /-- R137: Reduction signed minimum. -/
  | redMin (b x : BitVec 5) (z : BitVec 3) (s : BitVec 5) (o : BitVec 3)
  /-- R137: Reduction signed maximum. -/
  | redMax (b x : BitVec 5) (z : BitVec 3) (s : BitVec 5) (o : BitVec 3)
  /-- R137: Reduction unsigned minimum. -/
  | redMinn (b x : BitVec 5) (z : BitVec 3) (s : BitVec 5) (o : BitVec 3)
  /-- R137: Reduction unsigned maximum. -/
  | redMaxn (b x : BitVec 5) (z : BitVec 3) (s : BitVec 5) (o : BitVec 3)
  /-- R137: Reduction FP32 add. -/
  | redFadd (b x s : BitVec 5) (o : BitVec 3)
  /-- R137: Reduction FP32 minimum. -/
  | redFmin (b x s : BitVec 5) (o : BitVec 3)
  /-- R137: Reduction FP32 maximum. -/
  | redFmax (b x s : BitVec 5) (o : BitVec 3)
  /-- R133: Make earlier loads acquires at the scope. -/
  | fenceAcq (s : BitVec 5)
  /-- R133: Order later stores as releases at the scope. -/
  | fenceRel (s : BitVec 5)
  /-- R133: Acquire and release fence that also holds later loads until earlier stores are acknowledged. -/
  | fenceAr (s : BitVec 5)
  /-- R134: Take a checkpoint after the bundle. -/
  | qmark
  /-- R141: Take a ticket: return NEXT and increment it. -/
  | tktTake (d b s : BitVec 5) (o : BitVec 3)
  /-- R141: Increment SERVING and wake the satisfied waiters. -/
  | tktServe (b s : BitVec 5) (o : BitVec 3)
  /-- R142: Block until SERVING reaches the ticket. -/
  | tktWait (b x s : BitVec 5) (o : BitVec 3)
  /-- R143: Arrive in the current phase of a level barrier. -/
  | barArrive (l : BitVec 3) (i : BitVec 2) (s : BitVec 5) (o : BitVec 3)
  /-- R143: Block until the phase of the latest unwaited arrival completes. -/
  | barWait (l : BitVec 3) (i : BitVec 2) (s : BitVec 5) (o : BitVec 3)
  /-- R145: Bind a stream descriptor to an input latch or output queue in the selected groups. -/
  | sbind (k : BitVec 1) (i : BitVec 3) (b x : BitVec 5) (t : BitVec 1)
  /-- R146: Unbind a latch or queue. -/
  | sstop (k : BitVec 1) (i : BitVec 3) (x : BitVec 5)
  /-- R146: Return a latch or queue to entry 0. -/
  | srewind (k : BitVec 1) (i : BitVec 3) (x : BitVec 5)
  /-- R149: Initialise a handle from a descriptor. -/
  | cbinit (k : BitVec 3) (b x : BitVec 5) (t : BitVec 1)
  /-- R150: Advance a handle pointer by n slots, blocking for slots. -/
  | cbadv (s : BitVec 1) (k : BitVec 3) (x : BitVec 5)
  /-- R151: Invalidate the core's or the quad's fused L1. -/
  | l1inv
  /-- R152: Prefetch a line into L1 and L2, or into L2 only. -/
  | pref (b x : BitVec 5) (r : BitVec 2) (y : BitVec 1)
  -- G-slot forms (R16)
  /-- R16: Broadcast an index that every group executes from its front bank. -/
  | bx (i : BitVec 10) (a : BitVec 8)
  /-- R16: Broadcast an index to the groups selected by MASK. -/
  | bxm (i : BitVec 10) (a m : BitVec 8)
  -- E-slot forms (R78)
  /-- R191: Engine copy of BYTES, or into a handle with HDST. -/
  | copy (d o : BitVec 5) (c : BitVec 3) (s : BitVec 5) (h : BitVec 1)
  /-- R193: Tensor copy with permutation, conversion, quantisation and padding. -/
  | copyx (d o : BitVec 5) (c : BitVec 3) (s : BitVec 5) (h : BitVec 1)
  /-- R194: Gather rows by index. -/
  | gather (d : BitVec 5) (c : BitVec 3) (s : BitVec 5)
  /-- R194: Scatter rows by index. -/
  | scatter (d : BitVec 5) (c : BitVec 3) (s : BitVec 5)
  /-- R195: Check a table image and write it into the back bank, or refuse it. -/
  | tload (d : BitVec 5) (c : BitVec 3)
  /-- R196: Seal the back bank after the earlier tloads. -/
  | tseal (d : BitVec 5) (c : BitVec 3)
  /-- R197: Fill sparsity-metadata records. -/
  | smload (d o : BitVec 5) (c : BitVec 3)
  /-- R198: Write bundles into the image's IM extent. -/
  | imload (d : BitVec 5) (c : BitVec 3)
  /-- R283: Run a collective, or register or release a reduction window. -/
  | coll (d : BitVec 5) (c : BitVec 3) (s : BitVec 5)
  /-- R288: Fire a tile of a tiled collective. -/
  | tready (d o : BitVec 5) (c : BitVec 3)
  /-- R290: Read back the reduced data of a window round. -/
  | mldr (d : BitVec 5) (c : BitVec 3) (s : BitVec 5)
  /-- R290: Contribute data to a reduction window. -/
  | mred (d : BitVec 5) (c : BitVec 3) (s : BitVec 5)
  /-- R275: Dispatch token rows to experts and write the map and status blocks. -/
  | route (d : BitVec 5) (c : BitVec 3) (s : BitVec 5)
  /-- R278: Open a layer transaction. -/
  | ltxOpen (d : BitVec 5) (c : BitVec 3) (s : BitVec 5)
  /-- R280: Commit a layer transaction at every home. -/
  | ltxCommit (d o : BitVec 5) (c : BitVec 3) (s : BitVec 5)
  /-- R281: Abort a layer transaction, or release an aborted one. -/
  | ltxAbort (d o : BitVec 5) (c : BitVec 3) (s : BitVec 5)
  /-- R203: Establish an amplitude state. -/
  | aeMap (d : BitVec 5) (c : BitVec 3) (s : BitVec 5)
  /-- R204: Load the die's matrix memory. -/
  | aeMapMatrices (d : BitVec 5) (c : BitVec 3) (s : BitVec 5)
  /-- R204: Release the state and write the final map. -/
  | aeMapUnmap (d : BitVec 5) (c : BitVec 3) (s : BitVec 5)
  /-- R205: Apply a controlled 2^K gate to the state. -/
  | aeGate (d : BitVec 5) (c : BitVec 3) (s : BitVec 5)
  /-- R207: Perform one fantail turn on demand. -/
  | aeSwap (d : BitVec 5) (c : BitVec 3) (s : BitVec 5)
  /-- R208: Write the probability of a selection. -/
  | aeNorm (d : BitVec 5) (c : BitVec 3) (s : BitVec 5)
  /-- R208: Write the probability of a selection and project the state onto it. -/
  | aeProj (d : BitVec 5) (c : BitVec 3) (s : BitVec 5)
  /-- R200: Hold a command until a counter passes a threshold. -/
  | trig (d : BitVec 5) (c : BitVec 3)
  /-- R201: Cancel an unfired trigger. -/
  | cancel (d o : BitVec 5) (c : BitVec 3)
  -- X-slot forms (R79)
  /-- R79: X-slot no-operation. -/
  | xnop
  /-- R212: Load a column's keys from two registers, with optional row tags. -/
  | cload (g : BitVec 3) (a b : BitVec 6) (c : BitVec 3) (r : BitVec 1)
  /-- R212: Load a column's tags. -/
  | ctag (g : BitVec 3) (a b : BitVec 6) (c : BitVec 3)
  /-- R212: Store a column's keys or tags to registers. -/
  | cstore (g : BitVec 3) (a b : BitVec 6) (c : BitVec 3) (k : BitVec 1)
  /-- R213: Run bitonic compare-exchange stages on columns. -/
  | cx (g c j d b : BitVec 3)
  /-- R212: Clear columns to NaN keys with row tags. -/
  | cclr (g c : BitVec 3)
  /-- R214: Discard RBQ entries and set the fill count. -/
  | rngseed (g : BitVec 3) (a : BitVec 6)
  /-- R214: Enable or stop RBQ filling, optionally flushing. -/
  | rngctl (f e : BitVec 1)
  -- group-table operations (R82)
  /-- R82: The all-zero entry: the group does nothing. -/
  | entryNop
  /-- R157: Lane add. -/
  | vadd (e : Entry)
  /-- R157: Lane subtract. -/
  | vsub (e : Entry)
  /-- R157: Lane multiply, low 32 bits. -/
  | vmul (e : Entry)
  /-- R157: Lane multiply, high 32 bits. -/
  | vmulh (e : Entry)
  /-- R157: Lane multiply-add. -/
  | vmad (e : Entry)
  /-- R158: INT8 dot product of four bytes plus C. -/
  | vdp4 (e : Entry)
  /-- R157: Lane AND. -/
  | vand (e : Entry)
  /-- R157: Lane OR. -/
  | vor (e : Entry)
  /-- R157: Lane XOR. -/
  | vxor (e : Entry)
  /-- R157: Lane shift left. -/
  | vshl (e : Entry)
  /-- R157: Lane logical shift right. -/
  | vshrl (e : Entry)
  /-- R157: Lane arithmetic shift right. -/
  | vshra (e : Entry)
  /-- R157: Lane minimum. -/
  | vmin (e : Entry)
  /-- R157: Lane maximum. -/
  | vmax (e : Entry)
  /-- R157: Lane absolute value. -/
  | vabs (e : Entry)
  /-- R157: Lane negate. -/
  | vneg (e : Entry)
  /-- R159: Lane integer compare to an all-ones or zero mask word. -/
  | vcmpCc (e : Entry)
  /-- R159: Lane select of A or B by C. -/
  | vsel (e : Entry)
  /-- R157: Lane population count. -/
  | vpopc (e : Entry)
  /-- R157: Lane leading zeros. -/
  | vclz (e : Entry)
  /-- R160: FP32 add. -/
  | vfadd (e : Entry)
  /-- R160: FP32 subtract. -/
  | vfsub (e : Entry)
  /-- R160: FP32 multiply. -/
  | vfmul (e : Entry)
  /-- R160: FP32 fused multiply-add. -/
  | vfma (e : Entry)
  /-- R160: FP32 minimum. -/
  | vfmin (e : Entry)
  /-- R160: FP32 maximum. -/
  | vfmax (e : Entry)
  /-- R160: FP32 absolute value. -/
  | vfabs (e : Entry)
  /-- R161: FP32 compare. -/
  | vfcmpCc (e : Entry)
  /-- R67: Correctly rounded reciprocal. -/
  | vfrcp (e : Entry)
  /-- R67: Correctly rounded reciprocal square root. -/
  | vfrsq (e : Entry)
  /-- R67: Correctly rounded 2^x. -/
  | vfexp2 (e : Entry)
  /-- R67: Correctly rounded log2 x. -/
  | vflog2 (e : Entry)
  /-- R162: Lane format conversion. -/
  | vcvt (e : Entry)
  /-- R163: Block quantisation of 32 values with an E8 scale. -/
  | vquant (e : Entry)
  /-- R164: Block dequantisation to FP32. -/
  | vdequant (e : Entry)
  /-- R165: Convert and pack two values into a lane. -/
  | vpack (e : Entry)
  /-- R166: Widen one packed element of a lane. -/
  | vunpack (e : Entry)
  /-- R167: L6 product term as FP32. -/
  | vlmul (e : Entry)
  /-- R167: Sum of four L6 terms plus C. -/
  | vlsum (e : Entry)
  /-- R168: Lane permute. -/
  | vperm (e : Entry)
  /-- R168: Broadcast one lane to all lanes. -/
  | vbcast (e : Entry)
  /-- R169: Reduction over the active lanes. -/
  | vreduce (e : Entry)
  /-- R169: Inclusive or exclusive scan over the active lanes. -/
  | vscan (e : Entry)
  /-- R168: Count of mask bits below each lane. -/
  | viota (e : Entry)
  /-- R170: Mask AND. -/
  | mand (e : Entry)
  /-- R170: Mask OR. -/
  | mor (e : Entry)
  /-- R170: Mask NOT. -/
  | mnot (e : Entry)
  /-- R170: Set a mask from the non-zero lanes of a source. -/
  | mset (e : Entry)
  /-- R173: Scratchpad row load. -/
  | spld (e : Entry)
  /-- R173: Scratchpad row store. -/
  | spst (e : Entry)
  /-- R173: Indexed scratchpad load. -/
  | spldx (e : Entry)
  /-- R173: Indexed scratchpad store. -/
  | spstx (e : Entry)
  /-- R174: Scratchpad load on full tags, emptying them. -/
  | spldFull (e : Entry)
  /-- R174: Scratchpad store on empty tags, filling them. -/
  | spstEmpty (e : Entry)
  /-- R175: Per-lane atomic add at the scratchpad atomic unit. -/
  | spatomAdd (e : Entry)
  /-- R176: Send a register to a neighbouring group. -/
  | vshn (e : Entry)
  /-- R178: Group address register add. -/
  | gadd (e : Entry)
  /-- R178: Load an immediate into a group address register. -/
  | gli (e : Entry)
  /-- R178: Move a lane of a source into a group address register. -/
  | gmov (e : Entry)
  /-- R178: Copy a group address register into every active lane of a vector register. -/
  | gmovVector (e : Entry)
  /-- R180: Dense matrix multiply-accumulate of n beats from h6 and h7 into a tile. -/
  | mma (e : Entry)
  /-- R180: 2:4 sparse matrix multiply-accumulate using side-memory metadata. -/
  | mmaSp (e : Entry)
  /-- R181: Zero a tile. -/
  | mzero (e : Entry)
  /-- R183: Read a tile, scale and convert it into a register block. -/
  | mdrain (e : Entry)
  /-- R181: Write a tile from a register block. -/
  | mfeed (e : Entry)
  /-- R184: Apply one FP32 operation to every register of a block. -/
  | vblk (e : Entry)
  -- steps of the machine
  /-- R11: The sequencer issues one bundle of the selected context: it makes the issue checks, applies the header predicate, iteration filter and pops, and runs the loop back-edge. -/
  | bundleIssue
  /-- R39: A context that has held the issue slot for 65,536 consecutive cycles gives way to the next ready context of equal priority. -/
  | selectorRotation
  /-- R20: An exposed result of class Ck is written at the end of cycle t + L − 1, and its pending count clears. -/
  | resultWrite
  /-- R22: The beat count of an MXU or of the column select unit runs out, and the unit may be issued to again. -/
  | beatCountExpiry
  /-- R180: The MXU performs one beat of an MMA on its tile, as one exact sum rounded once. -/
  | mmaBeat
  /-- R23: The busy bit of an accumulator tile clears at t + B·k + 8, or at t + 4 for mzero and mfeed, and stalled bundles may issue. -/
  | tileBusyClear
  /-- R210: The column select unit performs one stage of a cx in cycle t + s. -/
  | columnStage
  /-- R32: Once every exposed result has landed, the sequencer closes the snapshot, hands the withheld stores and output entries to memory and opens a new snapshot; this covers CK, committing bundles and the forced checkpoints of R35. -/
  | checkpoint
  /-- R32: One handed-over store leaves the store-withholding buffer for the memory system each cycle, in buffer order. -/
  | withheldStoreDrain
  /-- R130: Once every earlier store has been acknowledged at the visibility point of its scope, a release store or operation is handed on. -/
  | releaseHandover
  /-- R251: A handed-over write is acknowledged at a visibility point, which may complete a waiting release or fence. -/
  | storeAcknowledgement
  /-- R36: A trap discards the context's in-flight results and withheld stores, restores the snapshot, presents consumed entries again and writes the continuation; the launch's trap policy then applies. -/
  | trapTaken
  /-- R263: The home's report of a racing store on a trap-mode page arrives, and RACE is raised at the first bundle the context issues afterwards. -/
  | raceReport
  /-- R126: A returned value is written to its reserved LDQ entry or to sD, releasing interlocked bundles. -/
  | loadReturn
  /-- R347: A walker translates a micro-TLB miss through the four-level table, caches the leaf, or fails with TRANSLATION or PROTECTION. -/
  | pageWalk
  /-- R350: A walk held on a leaf with MIG set re-reads that leaf every 1 µs until MIG is clear. -/
  | migReread
  /-- R25: The transfer unit fills the next entry of a bound input latch from memory, and marks the entry faulted if the fetch faults. -/
  | streamFetch
  /-- R26: The transfer unit drains filled and released output-queue entries to the stream's addresses, and marks the queue faulted if the drain faults. -/
  | outputQueueDrain
  /-- R214: On every fourth cycle the generator fills one RBQ entry by Philox for the next qualifying context. -/
  | rbqFillSlot
  /-- R151: Sixteen cycles after an l1inv issues, the invalidation completes and non-bypass loads may issue. -/
  | l1invComplete
  /-- R136: The scratchpad atomic unit serves a queued full/empty, atomic or group request once its condition holds, and wakes the blocked context. -/
  | fullEmptyService
  /-- R142: A ticket waiter that found no record space resends its request every 1 µs. -/
  | ticketResend
  /-- R226: A barrier phase completes after every participating member has arrived and the completion time of its level has passed, and the waiters pass. -/
  | barrierPhaseComplete
  /-- R187: A queued engine command starts, in number order, once the stores its context handed over have been acknowledged at its scope's point and any order tag allows it. -/
  | engineCommandStart
  /-- R187: An engine command completes or fails: an error record is written and TERR set on failure, and TL advances over every completed number. -/
  | engineCommandComplete
  /-- R200: When TL[W] reaches THRESH, the command that the trigger holds starts as if issued then. -/
  | triggerFire
  /-- R288: A tile of a tiled collective fires on a tready, or on a non-zero flag store whose checkpoint commits, and performs its entries. -/
  | tileFire
  /-- R290: When every present member's mred or mldr for a granule has arrived, the switch merges the contributions by R65 and writes or delivers the result. -/
  | windowRoundMerge
  /-- R291: TIMEOUT passes after a round's first arrival while a member has not joined; the round fails or merges partially. -/
  | memberAbsentTimeout
  /-- R292: A coll reaches its TIMEOUT and aborts, writing its abort record. -/
  | collectiveTimeout
  /-- R281: The TIMEOUT of an open layer transaction passes, and the transaction aborts with CAUSE 2. -/
  | ltxTimeout
  /-- R202: An amplitude state command performs on a member once every member has received its command of that number; mismatched commands fail. -/
  | aeStateCommandPerform
  /-- R221: An idle context takes the chosen candidate, loads its record, restores or initialises its state, takes the table set and IM image if needed, and issues at PC. -/
  | pickup
  /-- R229: At every DEV_TIME multiple of 2,000 ns, distributors publish their ranges and dry distributors steal half of the largest. -/
  | stealRound
  /-- R232: The front end loads the IM, writes the INIT table, picks the item up into a fitting idle context and applies the presets on a named core. -/
  | gangCorePreparation
  /-- R232: Ten milliseconds after a gang launch is accepted with a core still unprepared, the launch is refused with RESOURCE. -/
  | gangPreparationTimeout
  /-- R233: At the first arithmetic-clock cycle at or after the start time, every prepared core releases its context. -/
  | gangRelease
  /-- R235: When arrivals have gathered, the deciding place broadcasts a swap time and a verdict of swap or SLUICE. -/
  | sluiceDecision
  /-- R235: At the swap time, every arrived core swaps its table banks and invalidates L1, or every member takes SLUICE. -/
  | sluiceSwap
  /-- R338: A context is stopped, rolled back or run to a checkpoint, withdrawn from waits, its engines and stores are brought to rest, and it is saved and reported. -/
  | preemption
  /-- R339: After pre-emption has brought a context to rest, the device writes its save area and its record with KIND 11. -/
  | contextSave
  /-- R360: Each MSC reads every line of its HBM once per scrub period, writes corrected data back and poisons uncorrectable lines. -/
  | patrolScrub
  /-- R356: An MSC spares a row by itself after 4 corrected errors in a scrub period, or after an uncorrectable line. -/
  | rowSpare
  /-- R336: Within one frame of an uncorrectable IM error, the firmware rewrites the poisoned position from the image and clears the mark. -/
  | imPoisonRepair
  /-- R357: An Otcor lane that loses lock or exceeds its error rate is replaced by the spare lane, or takes the port out of service. -/
  | laneFault
  /-- R362: A local droop detector drops clock pulses until the voltage recovers. -/
  | droopResponse
  /-- R362: At 100 °C or 108 °C a block drops clock pulses, and it stops dropping them when it cools. -/
  | thermalThrottle
  /-- R363: A junction reaching 115 °C stops all clocks and raises event 0x0030. -/
  | thermalTrip
  /-- R365: At reset the boot ROM verifies the first stage, which verifies the configuration records and firmware and then releases the package. -/
  | packageReset
  /-- R352: A retirement-map change received over the fabric is applied, and resident contexts are revalidated. -/
  | retirementMapUpdate
  /-- R329: A good stream-port frame is matched against the rules, and its payload and record are written into the ring or dropped. -/
  | frameReceived
  /-- R258: Once the frame's payload and record are acknowledged at point 2, the ring's count word takes n + 1 as a release. -/
  | countWordPublish
  /-- R331: The port sends the next transmit descriptor's frame, writes its status and advances TXCONS. -/
  | txFrameSend
  /-- R323: A Sceix polling slot reads its active slot's notify, re-reads a waiting head's counter and accepts at most one command. -/
  | pollingSlotVisit
  /-- R321: At each frame boundary, runnable queues bind to free slots or join the pending list. -/
  | frameBoundary
  /-- R321: Each AGING_NS raises a pending queue's effective priority by 1, up to CEIL. -/
  | agingTick
  /-- R321: A bound queue that stays not runnable for UNBIND_NS unbinds. -/
  | queueUnbind
  /-- R318: A command in the trigger table starts when its counter condition holds. -/
  | queueTriggerFire
  /-- R315: A 32-bit write of the producer index to a notify page announces commands; an overrun sets QERR 1. -/
  | notify
  /-- R314: The driver's write that sets ENABLE in a queue-table entry lets the queue accept notifies. -/
  | queueEnable
  /-- R314: A write that clears ENABLE stops the queue after its head command and frees its slot. -/
  | queueDisable
  /-- R316: Queue command NOP completes at once. -/
  | nopCommand
  /-- R319: Queue command LAUNCH reads a launch descriptor, checks it and the image, and starts the launch or refuses it. -/
  | launch
  /-- R316: Queue command WRITE writes 8 bytes and completes when they are acknowledged at point 4. -/
  | write
  /-- R337: Queue command ABORT aborts a held launch of the same PASID by the abort policy's effect. -/
  | abort
  /-- R219: Queue command REQUEUE puts a parked or saved record onto a die's ready list, or has no effect. -/
  | requeue
  /-- R312: Writing 1 to DEV_CTRL.ENABLE enables the host interface, or sets ENABLE_ERR. -/
  | deviceEnable
  /-- R313: Writing 0 to ENABLE stops queues, aborts held launches, empties the trigger table and stops rings. -/
  | deviceDisable
  /-- R330: A read of DEV_TIME returns device time and latches DEV_FRAC. -/
  | devTimeRead
  /-- R330: A write of TIME_SET steps DEV_TIME, and is ignored while any launch is held. -/
  | timeSet
  /-- R325: FW_CTRL.LOAD copies a firmware image into the standby half and verifies it. -/
  | fwLoad
  /-- R325: FW_CTRL.SWITCH in state 2 makes the next frame the handover frame. -/
  | fwSwitch
  /-- R325: In the handover frame, the old executive writes the state block, and the new executive starts at the following frame boundary. -/
  | firmwareHandover
  /-- R328: Setting EN in a receive-ring descriptor enables the ring and resets FRAMES. -/
  | ringEnable
  /-- R331: Setting EN of a transmit ring enables it and sets TXCONS := TXPROD. -/
  | txEnable
  /-- R331: A write of TXPROD announces transmit descriptors, and is ignored on overrun. -/
  | txprod
  /-- R311: A write to a BAR0 register or table with no behaviour of its own stores the value, subject to its access rules. -/
  | registerWrite
  /-- R348: Service request SHOOTDOWN removes the cached translations of a page or PASID and waits for walks, accesses and atomics to end. -/
  | shootdown
  /-- R333: Service request PREEMPT_CORES saves every context of the named cores and, with CLOSE, closes them. -/
  | preemptCores
  /-- R333: Service request PREEMPT_LAUNCH saves every resident context of a launch. -/
  | preemptLaunch
  /-- R333: Service request REOPEN lets closed cores accept pickups again. -/
  | reopen
  /-- R353: Service request CORE_OUT retires a closed, empty core and returns its unstarted chunk items. -/
  | coreOut
  /-- R354: Service request SPARE_IN self-tests a spare physical core, zeroes it and maps it to a retired number. -/
  | spareIn
  /-- R355: Service request DIE_OUT retires a compute die, passing its work on and keeping or giving up its HBM. -/
  | dieOut
  /-- R356: Service request BANK_SPARE copies an HBM bank into a spare bank and switches to it. -/
  | bankSpare
  /-- R358: Service request PORT with OUT takes an Otcor or stream port out of service. -/
  | portOut
  /-- R358: Service request PORT with IN retrains a port and returns it to service. -/
  | portIn
  /-- R357: Service request PORT with SPARE_LANE forces the spare lane of an Otcor port in place of a lane. -/
  | portSpareLane
  /-- R360: Service request SCRUB sets the patrol scrub period. -/
  | scrub
  /-- R368: Service request ATTEST writes a signed attestation report over a nonce. -/
  | attest
  /-- R373: ENTDAA or SETDASA gives the management target its dynamic address. -/
  | i3cDynamicAddress
  /-- R373: A 3-byte private write sets the read offset in BAR0 space. -/
  | i3cPrivateWrite
  /-- R373: A private read returns up to 256 bytes from the offset and advances it. -/
  | i3cPrivateRead
  /-- R374: A started engine command performs part of its work between start and completion, such as writing one slot into a handle and advancing its producer pointer, writing a collective granule at its last step, or one home performing its buffered transaction writes. -/
  | engineCommandProgress
  /-- R310: A host read or write through BAR4 reaches the package's HBM at its home, with the invalidations of R243. -/
  | bar4WindowAccess
  /-- R352: A package of the pod becomes unreachable over the fabric, so its members go absent and transactions homed there abort with CAUSE 1. -/
  | packageUnreachable
  /-- R352: An unreachable package rejoins the pod and receives the whole retirement map before it accepts any launch. -/
  | packageRejoins
  /-- R367: The package supply is lost, stopping everything, with the XMSS leaf counter already written in non-volatile memory. -/
  | powerLoss
  /-- R336: The sequencer fetches IM ahead of issue and into the loop buffer, correcting and counting correctable errors and marking uncorrectable positions poisoned. -/
  | imFetchAhead
  deriving DecidableEq, Repr

end Sys2Proof
end

