-- ==== Sys2Proof/Machine/State.lean ====
section
/-!
DEFINITION. The state of a pod of PX9-A packages as plain data: every piece of state the spec names, the issue frame of
the bundle being performed, and the agenda of the events that come next. Registers and other numbered storage are sparse
tables whose unlisted numbers read as the reset value named with the field. Keys: a core is `512 * package + package
core number` (R4), a die is `4 * package + die`, item `i` of group `g` of eight is `8 * g + i`, vector register `v` of
group `g` is `64 * g + v`.
-/

namespace Sys2Proof.Machine

/-- Why the machine stops. -/
inductive Fault where
  /-- Raised by `step` when no package of the pod has a running clock (R363 thermal trip, R367 power loss, R365
  recovery): nothing happens until a reset arrives in the agenda. Safe. -/
  | clocksStopped
  deriving DecidableEq, Repr

/-- Why an instruction has no meaning here. -/
inductive Refusal where
  /-- Answered by `exec`'s arm of an instruction that has no meaning yet. Safe. -/
  | notModelled (mnemonic : String)
  /-- Raised by `step` when the agenda's head is a slot form or an entry: those come only with a bundle. Safe. -/
  | notAStep
  deriving DecidableEq, Repr

/-- Memory cells in canonical form: addresses strictly rising, no entry equal to the value an unlisted address reads
as. -/
abbrev Mem := List Host.Cell

/-- Where an event of the machine happens, and the data the outside gives it: the operands of the steps of the opcode
table, which carry none of their own. Each step reads the fields its meaning names. -/
structure EvArgs where
  core   : Nat := 0
  ctx    : Nat := 0
  ectx   : Nat := 0
  num    : Nat := 0
  idx    : Nat := 0
  group  : Nat := 0
  pkg    : Nat := 0
  die    : Nat := 0
  launch : Nat := 0
  addr   : Nat := 0
  val    : Nat := 0
  bytes  : List Byte := []
  flag   : Bool := false
  deriving DecidableEq, Repr

/-- R248, Table 9.3: a scope entry. -/
structure Scope where
  point : Nat := 0
  gen   : Nat := 0
  set   : Bool := false
  stale : Bool := false
  cores : BitVec 512 := 0
  pkgs  : BitVec 512 := 0
  /-- sc0 (Table 9.4): of the named core, this context only -/
  only  : Option Nat := none
  deriving DecidableEq, Repr

/-- R144, Table 5.6: a stream descriptor. -/
structure StreamDesc where
  base    : Nat := 0
  fmt     : Nat := 0
  dims    : Nat := 0
  rd      : Nat := 0
  byp     : Bool := false
  scaled  : Bool := false
  lanes   : Nat := 0
  sstride : Int := 0
  counts  : List Nat := []
  strides : List Int := []
  sbase   : Nat := 0
  deriving DecidableEq, Repr

/-- R145: a bound latch or queue: the descriptor, where it was read from, and the position, which is the next entry's
number (R25, R26). -/
structure Binding where
  desc     : StreamDesc := {}
  src      : Nat := 0
  template : Bool := false
  pos      : Nat := 0
  deriving DecidableEq, Repr

/-- R148, Table 5.8: a handle descriptor. -/
structure HandleDesc where
  kind      : Nat := 0
  fmt       : Nat := 0
  scaled    : Bool := false
  base      : Nat := 0
  slotBytes : Nat := 128
  slots     : Nat := 1
  sbase     : Nat := 0
  sbytes    : Nat := 0
  deriving DecidableEq, Repr

/-- R149, R150: an initialised handle: slots consumed and slots filled by the context's own `cbadv`, as totals, and the
slots consumed that a checkpoint has returned to the producer (R27). -/
structure Handle where
  desc     : HandleDesc := {}
  consumed : Nat := 0
  produced : Nat := 0
  returned : Nat := 0
  deriving DecidableEq, Repr

/-- R29: a loop level. It is running, ended (not running, remaining count kept) or idle (remaining count 0). The count
its last `loop` set is remaining + iteration number. -/
structure Loop where
  run     : Bool := false
  remain  : Nat := 0
  iter    : Nat := 0
  first   : Nat := 0
  last    : Nat := 0
  /-- R113: stride entry k: target register and value. -/
  strides : Tbl (Nat × Word) := []
  deriving DecidableEq, Repr

/-- R126: an LDQ entry, reserved until its load's value arrives. -/
structure LdqEntry where
  id  : Nat
  val : Option Word
  deriving DecidableEq, Repr

/-- R26, R31: an entry of an output queue, held until a checkpoint releases it; empty until its result lands. -/
structure Held where
  group : Nat
  queue : Nat
  num   : Nat
  desc  : StreamDesc
  data  : Option VReg
  deriving DecidableEq, Repr

/-- The state of a context that a checkpoint's snapshot covers (R34), its PC with it (R36). -/
structure Arch where
  pc      : Nat := 0
  /-- s1 to s30; s0 and s31 are not stored (R14). -/
  s       : Tbl Word := []
  /-- R126: scalar registers that wait for a load, with the load's number. -/
  sWait   : Tbl Nat := []
  /-- R15: the cycle from which a multiply or divide result is usable. -/
  sReady  : Tbl Nat := []
  /-- R114: what back-edges have added to registers that wait for a load, to be added to its value (log entry 29). -/
  sAdd    : Tbl Word := []
  /-- p1 to p7 in bits 1 to 7; bit 0 is not read (R14). -/
  p       : BitVec 8 := 0
  loops   : Tbl Loop := []
  ldq     : List LdqEntry := []
  /-- Vector registers, keyed 64 g + i. -/
  v       : Tbl VReg := []
  /-- Accumulator tiles, keyed 8 g + t. -/
  tiles   : Tbl Tile := []
  /-- m1 to m7, keyed 8 g + k; all ones where unlisted (R221). -/
  masks   : Tbl LaneMask := []
  /-- g0 to g7, keyed 8 g + k. -/
  gregs   : Tbl (BitVec 32) := []
  /-- Handles, keyed 8 g + k; unlisted before `cbinit`. -/
  handles : Tbl Handle := []
  /-- Bound input latches, keyed 8 g + k. -/
  latches : Tbl Binding := []
  /-- Bound output queues, keyed 8 g + k. -/
  queues  : Tbl Binding := []
  held    : List Held := []
  /-- R214: the RBQ, head first, the fill count of the next entry, and whether filling is enabled. -/
  rbq     : List RbqEntry := []
  rfill   : Nat := 0
  rngOn   : Bool := false
  /-- Table 4.4: RNG_KEY. Entries popped since the checkpoint come again with the same bits (R59), so the key belongs to the
  snapshot (log entry 96). -/
  rngKey  : Word := 0
  /-- R209: the column set, cell (column c, row r) at 64 c + r, key in [31:0] and tag in [47:32]; a canonical NaN with
  tag r where unlisted. -/
  cols    : Tbl (BitVec 48) := []
  /-- R247: the in-core scope table, entries 8 to 31. -/
  scopes  : Tbl Scope := []
  deriving DecidableEq, Repr

/-- Where an exposed result lands (R20). -/
inductive Dest where
  | vreg (i : Nat)
  | mask (k : Nat)
  | greg (k : Nat)
  /-- position of the reserved entry in the region's list of held entries -/
  | queue (i : Nat)
  | none
  deriving DecidableEq, Repr

/-- R20: an exposed result in flight: it lands at the end of cycle `due` in the lanes of `lanes`. -/
structure Pending where
  group : Nat
  dest  : Dest
  data  : VReg
  lanes : LaneMask
  due   : Nat
  /-- R69: landing sets QSAT. -/
  qsat  : Bool := false
  deriving DecidableEq, Repr

/-- What an address reaches (R237, R238). -/
inductive Place where
  /-- physical scratchpad offset of a core -/
  | spad (core off : Nat)
  /-- HBM: fabric address, `2^52 * package + device physical address` (R6) -/
  | hbm (addr : Nat)
  /-- host memory behind a package under a PASID: byte address -/
  | host (pkg pasid addr : Nat)
  deriving DecidableEq, Repr

/-- R344: a translated address with the page's attributes. -/
structure Target where
  place : Place
  /-- pod-cacheable -/
  pc    : Bool := false
  /-- R263: 0 unchecked, 1 trap mode, 2 log mode -/
  race  : Nat := 0
  /-- R348: the leaf through which it was translated: PASID, first virtual address and size of its page; none for an aperture -/
  page  : Option (Nat × Nat × Nat) := none
  deriving DecidableEq, Repr

/-- R129: a load that has issued and not yet written its value. -/
structure Load where
  id     : Nat
  /-- destination register, 0 for the LDQ -/
  dst    : Nat
  /-- bundle index of the load -/
  pc     : Nat := 0
  target : Target
  size   : Nat
  signed : Bool := false
  byp    : Bool := false
  rd     : Nat := 0
  /-- it belongs to a committing bundle (R128, R131) -/
  commit : Bool := false
  /-- issued before the last `l1inv` or invalidation: it fills no line (R151) -/
  nofill : Bool := false
  /-- the bytes read, once the load has performed -/
  data   : Option Word := none
  /-- the data arrived marked uncorrectable (R131) -/
  ue     : Bool := false
  /-- R263: the access raced on a trap-mode page -/
  raced  : Bool := false
  /-- R129: it is an acquire under this index and entry; the acquire happens as the value is written -/
  acq    : Option (Nat × Scope) := none
  deriving DecidableEq, Repr

/-- R31, R130: an entry of the store-withholding buffer, or a store handed over: bytes of one 128-byte block. -/
structure Store where
  core  : Nat
  ctx   : Nat
  place : Place
  /-- bytes by the address of their place (`Place.key`), later ones over earlier ones -/
  cells : List Host.Cell
  rel   : Bool := false
  race  : Nat := 0
  pc    : Bool := false
  /-- R239: RRIP insertion value, applied at the MSC -/
  rd    : Nat := 0
  /-- R262: the writer's interval number, and the index and generation of its last release or acquire, at the store -/
  interval : BitVec 34 := 0
  lastSc   : Nat := 0
  lastGen  : Nat := 0
  /-- R348, R349: the page of its translation; it is the write of an atomic of an L2 slice -/
  page   : Option (Nat × Nat × Nat) := none
  atomic : Bool := false
  /-- R253: contexts that have acquired while it was in the core or the die, as 4 core + context: their releases cover it -/
  seen   : List Nat := []
  deriving DecidableEq, Repr

/-- R245: what a checkpoint has released and the core has still to hand over, in order: an output entry, or a store behind
one that waits. -/
inductive Released where
  | entry (h : Held)
  | store (st : Store)
  deriving DecidableEq, Repr

/-- R25, R147: a fetched entry of an input latch. -/
structure LatchEntry where
  num   : Nat
  data  : VReg
  /-- 0, or the recorded cause of a faulted fetch -/
  fault : Nat
  deriving DecidableEq, Repr

/-- R200: what a trigger holds back. -/
structure Held200 where
  watch  : Nat
  thresh : Nat
  op     : Nat
  desc   : Nat
  opnd   : Nat
  sc     : Nat
  flags  : Nat
  snap   : Scope
  deriving DecidableEq, Repr

/-- R190, Table 7.2: what the error record of a failed command says beside its number and time. -/
structure EngFail where
  code   : Nat
  kind   : Nat := 0
  index  : Nat := 0
  group  : Nat := 0
  detail : Nat := 0
  deriving DecidableEq, Repr

/-- A write that a command has still to perform: its address and bytes, and the bits of them that it replaces (none: all of
them; R266: an L6 element is part of a 24-bit group). -/
structure EWrite where
  va    : Nat
  bytes : List Byte
  mask  : Option Nat := none
  deriving DecidableEq, Repr

/-- R185 to R190: a command on an engine context. -/
structure EngCmd where
  num     : Nat
  op      : Nat
  desc    : Nat
  opnd    : Nat
  sc      : Nat
  flags   : Nat
  /-- the scope entry as captured at acceptance (R252) -/
  snap    : Scope
  started : Bool := false
  /-- an unfired trigger and what it holds (R200) -/
  trig    : Option Held200 := none
  /-- what the command read as it started: the block's body, other data, and the writes it will perform -/
  body    : List Byte := []
  data    : List Byte := []
  writes  : List EWrite := []
  /-- slots written into a handle so far (R192) -/
  slots   : Nat := 0
  /-- tiles fired (R288) -/
  fired   : List Nat := []
  /-- R189: its order tag, if its header is tagged -/
  tag     : Option Nat := none
  /-- numbers of the steps (`State.free`) of its acceptance and of its start -/
  at_     : Nat := 0
  since   : Nat := 0
  /-- tick of its start -/
  startAt : Nat := 0
  /-- a trigger that has fired: it holds back no later command (R200) -/
  late    : Bool := false
  /-- R288: allocation offset of the first ready flag of a tiled collective, and its tiles -/
  flagAt  : Nat := 0
  ntiles  : Nat := 0
  /-- the failure found as it started, or decided for it by another agent (window, collective, transaction, amplitude
  engine) -/
  verdict : Option EngFail := none
  /-- the runner, switch or amplitude engine has done its part -/
  ready   : Bool := false
  /-- R311: the package's selection table as the command was accepted: its registers written so far -/
  selTab  : Tbl (BitVec 64) := []
  /-- R281: result ranges of transactions that have aborted since its acceptance: fabric address and bytes -/
  struck  : List (Nat × Nat) := []
  deriving DecidableEq, Repr

/-- R186, R187: an engine context of a hardware context. -/
structure EngCtx where
  issued : Nat := 0
  tl     : Nat := 0
  /-- completed numbers above TL -/
  done   : List Nat := []
  cmds   : List EngCmd := []
  deriving DecidableEq, Repr

/-- R226: an unwaited barrier arrival: level, ID, unit and phase. -/
structure Arrival where
  level : Nat
  id    : Nat
  unit  : Nat
  phase : Nat
  /-- the core that arrived (Table 15.5) -/
  core  : Nat
  deriving DecidableEq, Repr

/-- R13, Table 3.13: the windows an armature declares. -/
structure Windows where
  vregs   : Nat := 0
  tiles   : Nat := 0
  handles : Nat := 0
  mxu     : Bool := false
  latches : Nat := 0
  queues  : Nat := 0
  tcount  : Nat := 0
  spad    : Nat := 0
  bars    : List Nat := []
  deriving DecidableEq, Repr

/-- What a blocked context waits for (R38). -/
inductive Wait where
  | timeline
  | fullEmpty
  | ticket
  | barrier
  | sluice
  | latch
  | queue
  | slots
  | engineQueue
  | engines
  deriving DecidableEq, Repr

/-- R141, R142: a recorded ticket waiter. -/
structure Waiter where
  place  : Place
  /-- where it is recorded: 0 unit, 1 slice, 2 home -/
  kind   : Nat
  core   : Nat
  ctx    : Nat
  ticket : BitVec 32
  /-- R348: the page of its translation -/
  page   : Option (Nat × Nat × Nat) := none
  deriving DecidableEq, Repr

/-- R38, R233, R338: the state of a hardware context. -/
inductive Status where
  | idle
  /-- picked up for a gang and not yet released -/
  | prepared
  | ready
  | blocked (w : Wait)
  /-- stopped by a trap or a pre-emption, or by its `yield` or `exit`, waiting for its stores and started commands to come to
  rest -/
  | resting
  deriving DecidableEq, Repr

/-- R217, R230, R338: why a context rests. For an `exit`, `cause` is 1 where the item ends with error status (R118). -/
structure RestInfo where
  /-- 0 pre-emption, 1 trap, 2 abort of the launch, 3 `yield`, 4 `yield park`, 5 `exit` -/
  kind   : Nat
  /-- of a `yield`, the index of the bundle after it -/
  pc     : Nat := 0
  cause  : Nat := 0
  tcause : Word := 0
  deriving DecidableEq, Repr

/-- A hardware context of a core (R5). -/
structure Ctx where
  status   : Status := .idle
  launch   : Nat := 0
  /-- record slot and its address (R216) -/
  slot     : Nat := 0
  recAddr  : Nat := 0
  /-- SAVE_AREA of its record (R215) -/
  saveArea : Nat := 0
  /-- number of the step of its pickup, plus 1: it names the continuation among the members of a barrier (R226) -/
  pick     : Nat := 0
  pasid    : Nat := 0
  win      : Windows := {}
  /-- bank-local base of the scratchpad allocation (R237) -/
  base     : Nat := 0
  arch     : Arch := {}
  snap     : Arch := {}
  inflight : List Pending := []
  loads    : List Load := []
  nextLoad : Nat := 1
  /-- fetched, retained entries of each latch, keyed 8 g + k (R35) -/
  latchBuf : Tbl (List LatchEntry) := []
  /-- R147: recorded cause of a faulted output queue, keyed 8 g + k -/
  qFault   : Tbl Nat := []
  /-- entries released by a checkpoint and not yet drained, and stores behind them, in order (R245) -/
  released : List Released := []
  /-- slots filled by copy engines, as totals, keyed 8 g + k (R34: not in the snapshot) -/
  engFill  : Tbl Nat := []
  -- special registers outside the snapshot (R106, Table 4.4)
  item     : Word := 0
  frame    : Word := 0
  args     : Tbl Word := []
  prio     : Nat := 0
  scopeTab : Nat := 0
  tcause   : Word := 0
  devFrac  : BitVec 16 := 0
  fstat    : Word := 0
  terr     : BitVec 8 := 0
  ec       : Tbl EngCtx := []
  sluiceCount : Nat := 0
  /-- it has blocked in `sluice` and counts as an arrival (R234) -/
  inSluice : Bool := false
  arrivals : List Arrival := []
  /-- phases by level and ID from which the context takes part, keyed 4 level + id (R226); under 24, the first sluice that
  waits for it (R234) -/
  joins    : Tbl Nat := []
  /-- R261: interval number, and scope index and generation of the last release or acquire -/
  interval : BitVec 34 := 0
  lastSc   : Nat := 0
  lastGen  : Nat := 0
  /-- first cycle at which it may issue, after a taken branch (R28) or allocation zeroing (R221) -/
  issueAt  : Nat := 0
  /-- R233, R235: first pulse of the arithmetic clock on which it may issue, which is never dropped; and the start time of its gang,
  a DEV_TIME before whose pulse it does not issue -/
  edge     : Nat := 0
  startAt  : Option Nat := none
  /-- a checkpoint still to be taken after the last bundle: 1 for CK, 2 for `qmark`, 3 after a committing bundle, 4 after one
  with `qmark` (R32, R33, R134); 5: one that another context's bundle forces (R35) -/
  ckOwed   : Nat := 0
  /-- R35: the forced checkpoint of the context's own before its bundle has been taken, and the bundle waits for other contexts' -/
  ckMade   : Bool := false
  /-- a drain holds the next bundle until every result has landed (R28) -/
  drain    : Bool := false
  /-- R263: a racing store of the context has performed and its home has not yet reported -/
  raceReport : Bool := false
  /-- deferred cause to raise at its next bundle, 0 for none (R131, R263) -/
  deferred : Nat := 0
  /-- a release store, the context's own entry of the withholding buffer, waits for acknowledgements at this point (R130) -/
  relWait  : Option Nat := none
  /-- the answer of the scratchpad atomic unit to its request (R136), words in request order -/
  served   : Option (List Word) := none
  /-- R131: the first word of that answer was marked uncorrectable as it was read -/
  servedUE : Bool := false
  /-- R289: a `red.rel` that waits was checked against the window with this ID, plus 1; 0 once the window has been released -/
  redAt    : Option Nat := none
  /-- a recorded ticket wait has been answered (R142) -/
  granted  : Bool := false
  /-- tick at which an unrecorded ticket wait may resend (R142) -/
  resendAt : Nat := 0
  /-- R347: an address whose translation missed and waits for a page walk -/
  walk     : Option Nat := none
  /-- the address and the cause of a walk that failed, taken by the stalled bundle when it is tried again -/
  walkFail : Option (Nat × Nat) := none
  /-- the request that `resendAt` sends again -/
  resend   : Option Waiter := none
  /-- R350: a walk held on a migrating leaf, and the tick of its next re-read -/
  migHold  : Option (Nat × Nat) := none
  /-- R35: entries popped since the checkpoint: of the RBQ, of the LDQ, of each latch keyed 8 g + k -/
  rbqPops  : Nat := 0
  ldqPops  : Nat := 0
  latchPops : Tbl Nat := []
  /-- R35: vector registers (64 g + i) and tiles (8 g + t) that hold a shadow -/
  shadowV  : List Nat := []
  shadowT  : List Nat := []
  /-- a checkpoint other than the pickup's has been taken since the pickup (R337) -/
  ckSince  : Bool := false
  /-- flag words stored in the region that a tiled collective may watch (R288) -/
  flags    : List Nat := []
  /-- R222: the launch whose item the context completed last by `exit`, and the end of the chunk that its core then held -/
  prefer   : Option (Nat × Nat) := none
  /-- a pre-emption has been requested (R338) -/
  preempt  : Bool := false
  rest     : Option RestInfo := none
  deriving DecidableEq, Repr

/-- R70: an IM position. -/
structure ImWord where
  bits     : Bundle := 0
  pool     : Bool := false
  poisoned : Bool := false
  deriving DecidableEq, Repr

/-- R17: one index of a bank. -/
structure Index where
  cls     : Nat
  commit  : Bool
  /-- the eight entries, group 0 first, as 64-bit words -/
  entries : List (BitVec 64)
  /-- groups whose entry is marked uncorrectable (R359) -/
  poison  : List Nat := []
  deriving DecidableEq, Repr

/-- R17: a bank of the table set: declared indices only. -/
abbrev Bank := Tbl Index

/-- R240: a line of L1, or a pod-cacheable remote line of L2: 128 bytes as filled, the RRIP value, and the way of its set that
holds it (R239). -/
structure Line where
  addr : Nat
  data : BitVec 1024
  rrpv : Nat
  way  : Nat := 0
  deriving DecidableEq, Repr

/-- R347: a cached translation: the leaf, the level it stood at (0: 64 KiB, 1: 64 MiB, 2: 64 GiB) and its tag. -/
structure TlbEntry where
  pasid : Nat
  /-- first virtual address of the page -/
  va    : Nat
  size  : Nat
  leaf  : BitVec 64
  deriving DecidableEq, Repr

/-- R259: a range-scoreboard entry. -/
structure RangeEntry where
  ctx   : Nat
  ectx  : Nat
  num   : Nat
  lo    : Nat
  hi    : Nat
  write : Bool
  deriving DecidableEq, Repr

/-- R135, R174, R175: one word operation of a request at a scratchpad atomic unit. -/
inductive UnitOp where
  | ldfull (w : Nat)
  | ldtake (w : Nat)
  | stfill (w : Nat) (v : BitVec 32)
  | stforce (w : Nat) (v : BitVec 32)
  | fetag (w : Nat)
  | feset (w : Nat) (full : Bool)
  /-- read-modify-write: address, bytes, operation code of Table 5.4, operand, compare value -/
  | rmw (off size op : Nat) (v cmp : Word)
  deriving DecidableEq, Repr

/-- R136: a request waiting at a unit in arrival order. -/
structure UnitReq where
  core : Nat
  ctx  : Nat
  /-- R174: the joint request of a bundle's groups -/
  joint : Bool := false
  ops  : List UnitOp
  deriving DecidableEq, Repr

/-- R180: an MMA in progress on a group's matrix unit. -/
structure MmaOp where
  ctx    : Nat
  tile   : Nat
  sparse : Bool
  meta_  : Nat
  beats  : Nat
  /-- the beat to perform next, and the cycle it performs in -/
  next   : Nat
  due    : Nat
  /-- cycles per beat -/
  step   : Nat
  /-- formats of A and B, whether scaled -/
  fmtA   : Nat
  fmtB   : Nat
  scaled : Bool
  /-- the slots consumed, data and scales of each FIFO in order -/
  dataA  : List Byte
  dataB  : List Byte
  scaleA : List Byte
  scaleB : List Byte
  perSlot : Nat
  deriving DecidableEq, Repr

/-- R210, R213: a `cx` in progress in the column select unit. -/
structure ColOp where
  ctx   : Nat
  lo    : Nat
  hi    : Nat
  j     : Nat
  d     : Nat
  s     : Nat
  beats : Nat
  due   : Nat
  deriving DecidableEq, Repr

/-- R228: a chunk, or what is left of it. -/
structure Chunk where
  launch : Nat
  lo     : Nat
  hi     : Nat
  deriving DecidableEq, Repr

/-- A core (R1, Table 0.3), under its package core number. -/
structure Core where
  /-- the arithmetic-clock cycle the core issues next; CYCLE (Table 4.4) counts from the package's last reset -/
  cycle   : Nat := 0
  /-- R362: pulses of the arithmetic clock that were no cycles of the core: cycle n falls on pulse n + lag -/
  lag     : Nat := 0
  ctxs    : Tbl Ctx := []
  im      : Tbl ImWord := []
  /-- IM base of each launch's image held here (R224) -/
  bases   : Tbl Nat := []
  front   : Bank := []
  back    : Bank := []
  sealed  : Bool := false
  /-- the launch that holds the table set (R18) -/
  owner   : Option Nat := none
  /-- scratchpad bytes and full tags (R135); tag state of word w is full when w is listed -/
  spad    : Mem := []
  full    : List Nat := []
  /-- R359: scratchpad words marked uncorrectable; registers and tiles marked so, with the lanes of a vector register, keyed 1024 ctx + n: n = 64 g + i for vector register
  i or tile i − 48, 512 + r for a scalar register, 544 + 8 g + k for a mask, 608 + 8 g + k for a group address register; words of the
  FIFO memories marked so, keyed 65536 (2 g + (0 A, 1 B)) + word -/
  spadUE  : List Nat := []
  /-- R172: bytes that a context's own request has changed at the core's unit before its bundle issues, and nobody since: context,
  physical offset, contents before -/
  spadOld : List (Nat × Nat × Byte) := []
  /-- R288: words of ready flags that committed stores of the core's contexts have set and whose collectives are in flight -/
  flagsOut : List Nat := []
  regUE   : Tbl LaneMask := []
  fifoUE  : List Nat := []
  /-- MXU FIFO memories, keyed 2 g + (0 A, 1 B), and sparsity side memory, keyed 128 g + record (Table 0.3) -/
  fifos   : Tbl Mem := []
  side    : Tbl (BitVec 256) := []
  l1      : List Line := []
  /-- cycle until which an `l1inv` runs (R151) -/
  l1until : Nat := 0
  fused   : Bool := false
  tlb     : List TlbEntry := []
  /-- withheld stores of all contexts, oldest first, and stores handed over and not yet drained (R31, R32) -/
  wbuf    : List Store := []
  hand    : List Store := []
  ranges  : List RangeEntry := []
  unitQ   : List UnitReq := []
  /-- MXU operations in progress and the cycle until which each unit's beat count runs, keyed by group (R22) -/
  mma     : Tbl (List MmaOp) := []
  mxuBusy : Tbl Nat := []
  /-- busy tiles, keyed 64 ctx + 8 g + t, with the cycle at which the bit clears (R23) -/
  busy    : Tbl Nat := []
  /-- the column select unit: running operations, busy-until cycle, and cycles from which columns are usable, keyed
  8 ctx + column (R22, R210) -/
  colOps  : List ColOp := []
  colBusy : Nat := 0
  colCtx  : Nat := 0
  colFrom : Tbl Nat := []
  /-- context served by the last used fill slot (R214), and one more than the CYCLE of that slot -/
  rngLast : Nat := 3
  rngAt   : Nat := 0
  /-- context that issued last and the cycles it has held the slot (R39) -/
  selCtx  : Nat := 0
  selHeld : Nat := 0
  chunks  : List Chunk := []
  /-- loop bodies held in the loop buffer: context, first and last position (R29) -/
  lbuf    : List (Nat × Nat × Nat) := []
  /-- positions fetched ahead of issue (R336) -/
  ahead   : List Nat := []
  /-- launches whose first pickup here has invalidated the L1 (R240) -/
  started : List Nat := []
  /-- closed by PREEMPT_CORES (R333) -/
  closed  : Bool := false
  /-- it has sampled its seal for a sluice: the launch and the bit (R235) -/
  sampled : Option (Nat × Bool) := none
  deriving DecidableEq, Repr

/-- R203: the amplitude state a die's engine holds. -/
structure Amp where
  lbase   : Nat
  nq      : Nat
  lbits   : Nat
  dbits   : Nat
  pbits   : Nat
  dies    : List Nat
  pkgs    : List Nat
  qmap    : List (BitVec 8)
  deriving DecidableEq, Repr

/-- R202: a state command received by a die's engine: the engine command's context, engine context and number. -/
structure AmpCmd where
  core  : Nat
  ctx   : Nat
  ectx  : Nat
  num   : Nat
  deriving DecidableEq, Repr

/-- A compute die and the base die under it (R1). -/
structure Die where
  /-- stores that the die's slices hold and the home has not yet performed, oldest first (R243, R251) -/
  slice   : List Store := []
  /-- L2 by set (R239, R243): lines of the package, which are coherent, and pod-cacheable remote lines (R244) -/
  l2      : Tbl (List Line) := []
  /-- the MSC of the base die by set (R239); its lines' contents are in `State.mem` -/
  msc     : Tbl (List Line) := []
  /-- the die TLB by set (R347) -/
  tlb     : Tbl (List TlbEntry) := []
  amp     : Option Amp := none
  ampQ    : List AmpCmd := []
  /-- matrix memory, 256 slots of 32 bytes (R204) -/
  matrix  : Tbl (BitVec 256) := []
  /-- tagged commands accepted and not yet visible, in acceptance order: tag, core, context, engine context, number (R189) -/
  tagQ    : List (Nat × Nat × Nat × Nat × Nat) := []
  /-- taken out by DIE_OUT (R355), and whether its HBM stays -/
  out     : Bool := false
  hbmOut  : Bool := false
  /-- R360: tick at which the present scrub pass began -/
  scrubAt : Nat := 0
  /-- R369: banks held out of service -/
  banksOut : List Nat := []
  /-- corrected errors of a row in this scrub period, keyed 2^20 bank + row; spared rows of each bank and banks of each stack (R356) -/
  rowErr  : Tbl Nat := []
  rowSpares : Tbl Nat := []
  bankSpares : Tbl Nat := []
  deriving DecidableEq, Repr

/-- R314 to R317: what the device keeps of a queue beside its table entry. -/
structure Queue where
  cons  : Nat := 0
  prod  : Nat := 0
  deriving DecidableEq, Repr

/-- R321: a queue on the pending list. -/
structure PendingQ where
  q     : Nat
  since : Nat
  eff   : Nat
  aged  : Nat
  deriving DecidableEq, Repr

/-- R316: a command read from a queue: the queue, its PASID and the eight words. -/
structure QCmd where
  q     : Nat
  pasid : Nat := 0
  words : List (BitVec 64)
  deriving DecidableEq, Repr

/-- R333: the service request the firmware is performing. -/
structure Svc where
  seq   : Nat
  kind  : Nat
  /-- its effect has begun, in the step with this tick -/
  begun : Option Nat := none
  /-- contexts still to be reported saved, as core and context -/
  left  : List (Nat × Nat) := []
  /-- R355: cores that a DIE_OUT has closed -/
  closed : List Nat := []
  /-- R348, R349: ranges of HBM at the old homes of the pages that a SHOOTDOWN names: fabric address and length -/
  pages : List (Nat × Nat) := []
  /-- its ARG1 and ARG2 as taken up; none: as they stand in the device block -/
  args  : Option (Nat × Nat) := none
  deriving DecidableEq, Repr

/-- R4, R369: the base record: the core map fixed at manufacture, which gives package core numbers their physical core (the identity
where unlisted), trim values, the path delays of the stream ports, physical cores (136 d + k) that failed manufacturing test, and the
HBM rows repaired at manufacture, as base die and row. -/
structure BaseRecord where
  map    : Tbl Nat := []
  trims  : List (BitVec 64) := []
  delays : List Nat := []
  bad    : List Nat := []
  rows   : List (Nat × Nat) := []
  deriving DecidableEq, Repr

/-- R369: a record of the repair log: action, operands and die, its digest, and the leaf of its signature. -/
structure Repair where
  action : Nat
  what   : Nat
  /-- the physical core of a spare that is mapped, the lane that a spare replaces, KEEP_HBM of a retired die -/
  with_  : Nat := 0
  die    : Nat := 0
  digest : BitVec 256 := 0
  leaf   : Nat := 0
  deriving DecidableEq, Repr

/-- R357, R371: an Otcor port. -/
structure Port where
  /-- lane replaced by the spare, if in use -/
  spare : Option Nat := none
  out   : Bool := false
  /-- R358: it is being taken out, and new collectives are given runners on other ports -/
  closing : Bool := false
  deriving DecidableEq, Repr

/-- R326, R331: a stream port: out of service, and the frame numbers awaiting publication keyed by ring. -/
structure SPort where
  out : Bool := false
  deriving DecidableEq, Repr

/-- R329, R350: a frame received and not yet delivered: port, rule, ring, the tick of its arrival, its time stamp in units of
`Pkg.timeBase` and its bytes. -/
structure RxFrame where
  port  : Nat
  rule  : Nat
  ring  : Nat
  at_   : Nat
  stamp : Nat
  bytes : List Byte
  deriving DecidableEq, Repr

/-- R329: a frame whose payload and record have been written and whose count word has not. -/
structure Publish where
  ring : Nat
  num  : Nat
  /-- the port that received it -/
  port : Nat := 0
  deriving DecidableEq, Repr

/-- A package (R1) as the host, the operator and the pod see it. -/
structure Pkg where
  /-- powered, clocked and released from boot (R363, R365, R367) -/
  running  : Bool := true
  tripped  : Bool := false
  recovery : Nat := 0
  /-- reachable over the fabric (R352) -/
  reachable : Bool := true
  /-- BAR0 registers and tables as 8-byte words by offset (R311); an unlisted offset reads its reset value -/
  regs     : Tbl (BitVec 64) := []
  /-- telemetry counters by BAR0 offset (R370, R371), and event records (R372) -/
  tel      : Tbl Nat := []
  events   : List (BitVec 16 × BitVec 16 × BitVec 64 × BitVec 64) := []
  /-- R330: DEV_TIME at tick `timeAt`, in units of 1/(3 · 10^9) ns, the units that it gains with a tick (10^9 at its nominal rate),
  and the latched fraction of BAR0 -/
  timeBase : Nat := 0
  timeAt   : Nat := 0
  pace     : Nat := 1000000000
  /-- arithmetic cycles of the pod at the package's last reset, from which CYCLE counts (Table 4.4) -/
  bootCycle : Nat := 0
  frac     : BitVec 16 := 0
  /-- R330: a frame of the rule that PTP_CTRL names has reached the PTP clock since it last set the rate -/
  ptpSeen  : Bool := false
  /-- DEV_STATUS.ENABLED and ENABLE_ERR (R312, R313) -/
  enabled  : Bool := false
  enableErr : Nat := 0
  queues   : Tbl Queue := []
  /-- active queue slots: slot and queue (R321); the tick since which a bound queue is not runnable -/
  slots    : Tbl Nat := []
  empties  : Tbl Nat := []
  pending  : List PendingQ := []
  triggers : List QCmd := []
  /-- R318: triggers found due at the last frame boundary, oldest first, and whether their counter words could be read -/
  due      : List (QCmd × Bool) := []
  /-- R322: what was served last at each priority, of the front end and of the trigger table -/
  rrFront  : Tbl Nat := []
  rrTrig   : Tbl Nat := []
  /-- commands accepted and not yet complete -/
  started  : List QCmd := []
  /-- R323: tick of the last frame boundary, and slots visited since -/
  frameAt  : Nat := 0
  visited  : List Nat := []
  /-- R325: firmware: state, active half, failure code, versions of the running image (none: the one of the boot) and of
  the image loaded; 1 once SWITCH is written, 2 in the handover frame -/
  fwState  : Nat := 0
  fwHalf   : Bool := false
  fwCode   : Nat := 0
  fwVer    : Option (BitVec 64) := none
  fwNext   : BitVec 64 := 0
  /-- R368: the images of the two halves, by the step that staged them (0: the boot's); no standby image while one is copied in -/
  fwImage  : Nat := 0
  standby  : Option Nat := none
  handover : Nat := 0
  svc      : Option Svc := none
  /-- R333: the driver has written a request before DONE reached the previous SEQ, so that its operands are open -/
  svcEarly : Bool := false
  /-- R352: this package's copy of the pod's retirement map: core keys and die keys -/
  retCores : List Nat := []
  retDies  : List Nat := []
  /-- changes made here and not yet received by a package: package, core or die key, is a die, retired -/
  mapSend  : List (Nat × Nat × Bool × Bool) := []
  /-- R4: physical core of each logical core, keyed by package core number; the identity where unlisted -/
  physOf   : Tbl Nat := []
  /-- package core numbers whose slot is unmapped (R353), and physical cores (136 d + k) known bad (R354) -/
  unmapped : List Nat := []
  badPhys  : List Nat := []
  ports    : Tbl Port := []
  sports   : Tbl SPort := []
  publish  : List Publish := []
  rx       : List RxFrame := []
  /-- R327: words of the match rules in force, by BAR0 offset -/
  rules    : Tbl (BitVec 64) := []
  /-- non-volatile memory (R366, R367, R369) -/
  leaf     : Nat := 0
  secVer   : Nat := 0
  base     : BaseRecord := {}
  repairs  : List Repair := []
  /-- R367: event 0x0042 has been raised -/
  leafWarned : Bool := false
  /-- R360: scrub period in seconds -/
  scrub    : Nat := 86400
  /-- R362: blocks throttled, with the pulses dropped out of four -/
  throttle : Tbl Nat := []
  /-- R373: management target: dynamic address and read offset, the register that the last read left unfinished, as its offset and
  its latched value, and the bytes of the last read -/
  i3cAddr  : Option Nat := none
  i3cOff   : Nat := 0
  i3cLatch : Option (Nat × Nat) := none
  i3cRead  : List Byte := []
  /-- data bytes of its in-band interrupts, last first -/
  ibi      : List (BitVec 8) := []
  /-- what the last BAR4 or register read returned to the host -/
  hostRead : List Byte := []
  /-- frames sent by the stream ports, last first: port and bytes (R331) -/
  sent     : List (Nat × List Byte) := []
  /-- MSI-X vectors signalled, last first (R314) -/
  msix     : List Nat := []
  deriving DecidableEq, Repr

/-- R93, R94: a kernel image as the front end read it. -/
structure Image where
  fuse     : Bool := false
  entry    : Nat := 0
  trapPc   : Nat := 0xFFFFFFFF
  win      : Windows := {}
  chunk    : Nat := 1
  features : BitVec 128 := 0
  /-- bundles in position order, each with its pool bit -/
  im       : List (Bundle × Bool) := []
  hasTable : Bool := false
  init     : List Byte := []
  hasInit  : Bool := false
  scopesT  : Tbl (List Byte) := []
  streamsT : List (List Byte) := []
  handlesT : List (List Byte) := []
  deriving DecidableEq, Repr

/-- R233, Table 8.6: a tag preset. -/
structure Preset where
  core   : Nat
  offset : Nat
  count  : Nat
  full   : Bool
  value  : BitVec 32
  deriving DecidableEq, Repr

/-- R226: one barrier of a launch: level, unit and ID; its phase, who has arrived, and the tick of the last needed
arrival. -/
structure Barrier where
  level   : Nat
  unit    : Nat
  id      : Nat
  phase   : Nat := 0
  /-- members that have arrived in the phase and in the next one, by the `pick` of their contexts -/
  arrived : List Nat := []
  ahead   : List Nat := []
  lastAt  : Nat := 0
  /-- R10: the core of that arrival and the cycle of its arithmetic clock -/
  lastOn  : Nat × Nat := (0, 0)
  deriving DecidableEq, Repr

/-- The life of a launch. -/
inductive Phase where
  | preparing
  | running
  /-- R337: its contexts come to rest; the STATUS for the completion record -/
  | aborting (status : Nat)
  deriving DecidableEq, Repr

/-- R227, Table 8.4: a launch. -/
structure Launch where
  id       : Nat
  pkg      : Nat
  desc     : Nat
  pasid    : Nat
  /-- the queue command, for its SIG write -/
  cmd      : QCmd
  image    : Image := {}
  cores    : List Nat := []
  n        : Nat := 0
  prio     : Nat := 0
  gang     : Bool := false
  pod      : Bool := false
  policy   : Nat := 0
  start    : Nat := 0
  presets  : List Preset := []
  oneshot  : Nat := 262144
  args     : List Word := []
  frameBase : Nat := 0
  frameStride : Nat := 0
  recBase  : Nat := 0
  recs     : Nat := 0
  saveBase : Nat := 0
  saveStride : Nat := 0
  scopeBase : Nat := 0
  scopeStride : Nat := 0
  completion : Nat := 0
  phase    : Phase := .running
  /-- remaining range of each die, and its returned ranges oldest first (R228, R353) -/
  ranges   : Tbl (Nat × Nat) := []
  returned : Tbl (List (Nat × Nat)) := []
  /-- ranges of a retired die that have passed to a die (R355), handed out after its own -/
  passed   : Tbl (List (Nat × Nat)) := []
  /-- ready list of each die, oldest first (R218): record slot and the number of the step that put it there -/
  readyQ   : Tbl (List (Nat × Nat)) := []
  /-- record slots in use (R216) -/
  used     : List Nat := []
  finished : Nat := 0
  errors   : Nat := 0
  sluiceCount : Nat := 0
  /-- decided sluice: swap tick and verdict (R235) -/
  swapAt   : Option (Nat × Bool) := none
  barriers : List Barrier := []
  accepted : Nat := 0
  prepared : List Nat := []
  late     : Bool := false
  /-- words 0x00 and 0x08 of the error record of a refused INIT table (R320) -/
  refusal  : Nat × Nat := (0, 0)
  /-- an ABORT command waits for the abort to end (R316) -/
  abortCmds : List QCmd := []
  /-- pickups held by a PREEMPT_LAUNCH in progress (R333) -/
  frozen   : Bool := false
  /-- last DEV_TIME multiple at which it stole (R229) -/
  stole    : Nat := 0
  deriving DecidableEq, Repr

/-- R289, R290: a contribution waiting at a window: element or granule, rank, bits, the engine command it belongs to,
and the tick of its arrival. -/
structure Contrib where
  /-- 0 `red` (element number), 1 `mldr`, 2 `mred` (granule number) -/
  kind  : Nat
  elem  : Nat
  rank  : Nat
  /-- the element, or the 128 bytes of the granule -/
  val   : BitVec 1024
  cmd   : Option (Nat × Nat × Nat × Nat)
  laddr : Nat
  since : Nat
  deriving DecidableEq, Repr

/-- R289: a reduction window registered in the pod's switches. -/
structure Window where
  id      : Nat
  launch  : Nat
  pkg     : Nat
  pasid   : Nat
  members : List Nat
  opr     : Nat
  fmt     : Nat
  rfmt    : Nat
  part    : Bool
  timeout : Nat
  /-- HOME: fabric address, offset within HOME, bytes, page by page -/
  home    : List (Nat × Nat × Nat)
  bytes   : Nat
  maddrs  : List Nat
  contribs : List Contrib := []
  /-- rounds in which a member was absent: kind, element or granule, rank; its late command fails (R291) -/
  missed  : List (Nat × Nat × Nat) := []
  deriving DecidableEq, Repr

/-- R278 to R282: a held layer transaction. -/
structure Ltx where
  launch  : Nat
  pkg     : Nat
  pasid   : Nat
  id      : Nat
  /-- fabric address, bytes, INPUT, page by page -/
  ranges  : List (Nat × Nat × Bool)
  /-- R282: the ranges as its descriptor names them: address, bytes, INPUT -/
  named   : List (Nat × Nat × Bool) := []
  /-- address of the state word, and where it lies in a context's scratchpad: core, context, allocation offset -/
  stateAt : Nat
  spad    : Option (Nat × Nat × Nat) := none
  /-- tick at which it times out -/
  deadline : Nat
  /-- 0 open, 1 committed, 2 aborted -/
  state   : Nat := 0
  /-- buffered writes by fabric address, later ones over earlier ones -/
  buffer  : List Host.Cell := []
  /-- contexts that issued the open or a command writing a range, as 4 core + context -/
  parties : List Nat := []
  /-- homes (die keys) that have still to perform after STATE 1 -/
  homes   : List Nat := []
  /-- R280: after STATE 1, the `ltx.commit` that committed it: core, context, engine context and number -/
  commit  : Option (Nat × Nat × Nat × Nat) := none
  deriving DecidableEq, Repr

/-- R284: a member's started collective, matched by group and number. -/
structure CollJoin where
  group : List Nat
  seq   : Nat
  rank  : Nat
  core  : Nat
  ctx   : Nat
  ectx  : Nat
  num   : Nat
  /-- KIND, OPR, FMT, TC, ALG word, NRANKS and BYTES, which must agree -/
  key   : List Nat
  /-- the source bytes as read at the first step (R287) -/
  src   : List Byte
  since : Nat
  /-- R358: the Otcor port whose runner carries it, and its TIMEOUT in ticks -/
  port  : Option Nat := none
  timeout : Nat := 0
  deriving DecidableEq, Repr

/-- Where a form of the bundle stands: S0, S1, A, a group, E or X; G is the broadcast form itself. -/
inductive Pos where
  | s0 | s1 | a | g | lg (k : Nat) | e | x
  deriving DecidableEq, Repr

/-- The bundle being performed (R11, R12): its context, the state its operands are read from, and what is still to be
performed of it. -/
structure Frame where
  active : Bool := false
  core   : Nat := 0
  ctx    : Nat := 0
  /-- bundle index relative to the image's IM base -/
  pc     : Nat := 0
  hdr    : BitVec 32 := 0
  lit    : BitVec 32 := 0
  /-- ARG of the G syllable (R16) -/
  arg    : BitVec 8 := 0
  /-- latency class of the index (R20) -/
  cls    : Nat := 0
  /-- registers as they stood before the bundle issued, and the whole context with its special registers -/
  old    : Arch := {}
  was    : Ctx := {}
  /-- R172: the scratchpad as the bundle's loads read it -/
  spad   : Mem := []
  /-- R174: the groups' entries of the bundle make a request at the core's atomic unit -/
  joint : Bool := false
  pos    : Pos := .s0
  todo   : List (Pos × Instr) := []
  /-- the target of a taken branch (R28) -/
  target : Option Nat := none
  /-- every part of the bundle has been found open, and its parts are being performed (R338 step 2) -/
  clear : Bool := false
  /-- the context left its continuation in this bundle, or a trap took it -/
  gone   : Bool := false
  deriving DecidableEq, Repr

/-- R350: a write of the device to a page that migrates, or behind one of the same process: it waits in order. -/
structure DevWrite where
  pkg   : Nat
  pasid : Nat
  va    : Nat
  bytes : List Byte
  /-- tick of the next re-read of the leaf -/
  due   : Nat
  /-- the queue that a fault stops with QERR 4 (R375) -/
  queue : Option Nat := none
  /-- a SIG write: the queue's MSI-X message follows it (R317) -/
  sig   : Bool := false
  deriving DecidableEq, Repr

/-- The pod. -/
structure State where
  /-- R229, R330: time in units of 1/3 ns; a cycle of the arithmetic clock is two -/
  tick     : Nat
  pkgs     : Tbl Pkg
  dies     : Tbl Die
  cores    : Tbl Core
  /-- HBM of every package by fabric address and host memory above (see `Place`) -/
  mem      : Mem
  /-- lines of 128 bytes marked uncorrectable, by address / 128 (R360) -/
  poison   : List Nat
  launches : List Launch
  nextLaunch : Nat
  windows  : List Window
  ltxs     : List Ltx
  colls    : List CollJoin
  /-- number of collectives of a group that a member has started: group, rank, count (R284) -/
  collSeq  : List (List Nat × Nat × Nat)
  waiters  : List Waiter
  /-- device writes that wait for a migrating page, oldest first (R350) -/
  devHeld  : List DevWrite
  frame    : Frame
  /-- operands of the event being performed -/
  ev       : EvArgs
  /-- the events that come next, in order; with none, the machine goes on by itself -/
  agenda   : List (Instr × EvArgs)
  /-- the core clocked last when the machine goes on by itself -/
  focus    : Nat
  /-- number of the step being made, to which free values are applied -/
  free     : Nat
  deriving DecidableEq, Repr

/-- The pod after package reset (R365): every package of the pod released, nothing held, every table at its reset
contents. -/
def State.reset : State :=
  { tick := 0
    pkgs := Config.podPackages.map (fun p => (p, {}))
    dies := []
    cores := []
    mem := []
    poison := []
    launches := []
    nextLaunch := 1
    windows := []
    ltxs := []
    colls := []
    collSeq := []
    waiters := []
    devHeld := []
    frame := {}
    ev := {}
    agenda := []
    focus := 0
    free := 0 }

end Sys2Proof.Machine
end

