-- ==== Sys2Proof/Machine/Mem.lean ====
section
/-!
DEFINITION. Memory as a canonical list of cells, byte order (R8: little-endian), numbered storage of the pod (cores,
contexts, dies, packages, launches), and the places an address can reach (R6, R237, R238).
-/

namespace Sys2Proof.Machine

/-- The outcome of a meaning. -/
abbrev Out := Host.Outcome State Fault Refusal

-- memory cells

/-- The byte at an address; an address that is not listed reads 0. -/
def Mem.rd : Mem → Nat → Byte
  | [], _ => 0
  | (b, w) :: t, a => if b = a then w else Mem.rd t a

/-- Write one byte, keeping the form canonical. -/
def Mem.wr : Mem → Nat → Byte → Mem
  | [], a, v => if v = 0 then [] else [(a, v)]
  | (b, w) :: t, a, v =>
    if a < b then (if v = 0 then (b, w) :: t else (a, v) :: (b, w) :: t)
    else if b = a then (if v = 0 then t else (a, v) :: t)
    else (b, w) :: Mem.wr t a v

/-- Canonical form: addresses above `lo` strictly rising, no byte 0. -/
def Mem.canonFrom : Nat → Mem → Bool
  | _, [] => true
  | lo, (a, v) :: t => decide (lo ≤ a) && v != 0 && Mem.canonFrom (a + 1) t

/-- The form every memory of the state keeps. -/
def Memory.wf (m : Mem) : Bool := Mem.canonFrom 0 m

/-- `n` bytes from address `a`. -/
def Mem.bytes (m : Mem) (a : Nat) : Nat → List Byte
  | 0 => []
  | n + 1 => Mem.rd m a :: Mem.bytes m (a + 1) n

/-- Write bytes from address `a` upward. -/
def Mem.put (m : Mem) (a : Nat) : List Byte → Mem
  | [] => m
  | b :: bs => Mem.put (Mem.wr m a b) (a + 1) bs

/-- R8: the value of bytes, least significant first. -/
def leNat : List Byte → Nat
  | [] => 0
  | b :: bs => b.toNat + 256 * leNat bs

/-- The `n` low bytes of a value, least significant first. -/
def leBytes : Nat → Nat → List Byte
  | 0, _ => []
  | n + 1, v => BitVec.ofNat 8 v :: leBytes n (v / 256)

/-- The value of `n` bytes at `a`. -/
def Mem.nat (m : Mem) (a n : Nat) : Nat := leNat (Mem.bytes m a n)

/-- Bits [lo + n − 1 : lo] of a number. -/
def bitsOf (v lo n : Nat) : Nat := v / 2 ^ lo % 2 ^ n

/-- The value of an n-bit field read as signed. -/
def signedOf (n v : Nat) : Int := if v % 2 ^ n < 2 ^ (n - 1) then (v % 2 ^ n : Nat) else (v % 2 ^ n : Nat) - (2 ^ n : Nat)

/-- Value of `n` bytes at offset `o` of a block already read. -/
def fieldAt (bs : List Byte) (o n : Nat) : Nat := leNat ((bs.drop o).take n)

/-- Overwrite the bytes at offset `o` of a block of bytes; the block keeps its length. -/
def spliceBytes (bs : List Byte) (o : Nat) (new : List Byte) : List Byte :=
  (bs.take o ++ new ++ bs.drop (o + new.length)).take bs.length

/-- `n` zero bytes. -/
def zeros (n : Nat) : List Byte := List.replicate n 0

/-- Bytes placed at offsets of a block of `size` zero bytes, later ones over earlier ones. -/
def layout (size : Nat) (parts : List (Nat × List Byte)) : List Byte :=
  parts.foldl (fun b p => spliceBytes b p.1 p.2) (zeros size)

-- lanes of wide registers

/-- Lane `l` of a vector register. -/
def laneOf (v : VReg) (l : Nat) : Lane := v.extractLsb' (32 * l) 32

/-- The vector register whose lane `l` is `f l`. -/
def mkLanes (f : Nat → Lane) : Nat → VReg
  | 0 => 0
  | n + 1 => mkLanes f n ||| ((f n).setWidth 1024 <<< (32 * n))

def vregOf (f : Nat → Lane) : VReg := mkLanes f 32

/-- Lanes of `new` where the mask is set, of `old` elsewhere (R153). -/
def mergeLanes (m : LaneMask) (old new : VReg) : VReg :=
  vregOf (fun l => if m.getLsbD l then laneOf new l else laneOf old l)

/-- A wide value as bytes, and back. -/
def vregBytes (v : VReg) : List Byte := leBytes 128 v.toNat
def vregOfBytes (bs : List Byte) : VReg := BitVec.ofNat 1024 (leNat bs)
def tileBytes (v : Tile) : List Byte := leBytes 1024 v.toNat
def tileOfBytes (bs : List Byte) : Tile := BitVec.ofNat 8192 (leNat bs)

/-- Word (r, c) of a tile (Table 0.3). -/
def tileWord (t : Tile) (r c : Nat) : Lane := t.extractLsb' (32 * (16 * r + c)) 32

def mkTile (f : Nat → Lane) : Nat → Tile
  | 0 => 0
  | n + 1 => mkTile f n ||| ((f n).setWidth 8192 <<< (32 * n))

/-- The tile whose word (r, c) is `f r c`. -/
def tileOf (f : Nat → Nat → Lane) : Tile := mkTile (fun i => f (i / 16) (i % 16)) 256

-- the parts of the pod

/-- R4: package, package core number, die key and quad of a core key. -/
def pkgOf (ck : Nat) : Nat := ck / 512
def pcoreOf (ck : Nat) : Nat := ck % 512
def dieOf (ck : Nat) : Nat := ck / 128
def quadOf (ck : Nat) : Nat := ck / 4
def diePkg (dk : Nat) : Nat := dk / 4

def State.core (s : State) (ck : Nat) : Core := s.cores.get ck {}
def State.setCore (s : State) (ck : Nat) (c : Core) : State := { s with cores := s.cores.set ck c }
def State.modCore (s : State) (ck : Nat) (f : Core → Core) : State := s.setCore ck (f (s.core ck))

def Core.ctx (c : Core) (x : Nat) : Ctx := c.ctxs.get x {}
def Core.setCtx (c : Core) (x : Nat) (k : Ctx) : Core := { c with ctxs := c.ctxs.set x k }

def State.ctx (s : State) (ck x : Nat) : Ctx := (s.core ck).ctx x
def State.setCtx (s : State) (ck x : Nat) (k : Ctx) : State := s.setCore ck ((s.core ck).setCtx x k)
def State.modCtx (s : State) (ck x : Nat) (f : Ctx → Ctx) : State := s.setCtx ck x (f (s.ctx ck x))
def State.modArch (s : State) (ck x : Nat) (f : Arch → Arch) : State :=
  s.modCtx ck x (fun c => { c with arch := f c.arch })

def State.die (s : State) (dk : Nat) : Die := s.dies.get dk {}
def State.setDie (s : State) (dk : Nat) (d : Die) : State := { s with dies := s.dies.set dk d }
def State.modDie (s : State) (dk : Nat) (f : Die → Die) : State := s.setDie dk (f (s.die dk))

def State.pkg (s : State) (p : Nat) : Pkg := s.pkgs.get p {}
def State.setPkg (s : State) (p : Nat) (k : Pkg) : State := { s with pkgs := s.pkgs.set p k }
def State.modPkg (s : State) (p : Nat) (f : Pkg → Pkg) : State := s.setPkg p (f (s.pkg p))

/-- A package of the pod that the fabric reaches (R352). -/
def State.hasPkg (s : State) (p : Nat) : Bool :=
  match s.pkgs.find p with
  | some k => k.reachable && k.running
  | none => false

/-- R345, R352: package `q` is in the pod and package `p` reaches it. -/
def State.reaches (s : State) (p q : Nat) : Bool :=
  if p = q then (match s.pkgs.find p with | some k => k.running | none => false) else s.hasPkg p && s.hasPkg q

def findLaunch : List Launch → Nat → Option Launch
  | [], _ => none
  | l :: t, n => if l.id = n then some l else findLaunch t n

def State.launch (s : State) (n : Nat) : Option Launch := findLaunch s.launches n

/-- Change launch `n`, if it is held. -/
def State.modLaunch (s : State) (n : Nat) (f : Launch → Launch) : State :=
  { s with launches := s.launches.map (fun l => if l.id = n then f l else l) }

/-- The launch whose continuation a context holds. -/
def State.launchOf (s : State) (ck x : Nat) : Option Launch := s.launch (s.ctx ck x).launch

def EngCtx.get (c : Ctx) (n : Nat) : EngCtx := c.ec.get n {}
def Ctx.eng (c : Ctx) (n : Nat) : EngCtx := c.ec.get n {}
def Ctx.setEng (c : Ctx) (n : Nat) (e : EngCtx) : Ctx := { c with ec := c.ec.set n e }
def State.eng (s : State) (ck x n : Nat) : EngCtx := (s.ctx ck x).eng n
def State.setEng (s : State) (ck x n : Nat) (e : EngCtx) : State := s.modCtx ck x (fun c => c.setEng n e)

/-- A context holds a continuation. -/
def Ctx.resident (c : Ctx) : Bool := c.status != .idle

/-- A number that changes a list position if it is there. -/
def setAt {α : Type} : List α → Nat → α → List α
  | [], _, _ => []
  | _ :: t, 0, v => v :: t
  | a :: t, n + 1, v => a :: setAt t n v

/-- A number joins a set held as a list without repeats. -/
def addOnce (n : Nat) (l : List Nat) : List Nat := if l.contains n then l else l ++ [n]

-- time

/-- A package whose clocks run (R363, R365, R367). -/
def State.clocked (s : State) (p : Nat) : Bool := match s.pkgs.find p with | some k => k.running | none => false

/-- R330: units of device time in a nanosecond (`Pkg.timeBase`). -/
def timeUnit : Nat := 3000000000

/-- R330: device time of a package in units. -/
def State.timeUnits (s : State) (p : Nat) : Nat := let k := s.pkg p; k.timeBase + (s.tick - k.timeAt) * k.pace

/-- R330: device time of a package in ns and its fraction in 1/65,536 ns. -/
def State.devTime (s : State) (p : Nat) : Nat := s.timeUnits p / timeUnit % 2 ^ 64
def State.devFrac (s : State) (p : Nat) : BitVec 16 := BitVec.ofNat 16 (s.timeUnits p % timeUnit * 65536 / timeUnit)

/-- The device time of a package takes a value in units, and a pace. -/
def State.setUnits (s : State) (p units pace : Nat) : State :=
  s.modPkg p (fun k => { k with timeBase := units, timeAt := s.tick, pace := pace })

/-- R233: the first pulse of the arithmetic clock at or after a device time of a package, 0 for one that has passed. -/
def State.pulseOf (s : State) (p v : Nat) : Nat :=
  let k := s.pkg p
  if v * timeUnit ≤ k.timeBase then 0
  else ((v * timeUnit - k.timeBase + k.pace - 1) / k.pace + k.timeAt + 1) / 2

/-- A telemetry counter of a package goes up by one (R370). -/
def State.count (s : State) (p off : Nat) : State :=
  s.modPkg p (fun k => { k with tel := k.tel.set off (k.tel.get off 0 + 1) })

/-- Add to a telemetry counter of a package. -/
def State.countBy (s : State) (p off n : Nat) : State :=
  s.modPkg p (fun k => { k with tel := k.tel.set off (k.tel.get off 0 + n) })

-- places

/-- R6: the fabric address of a package's device physical address. -/
def fabric (pkg pa : Nat) : Nat := pkg * 2 ^ 52 + pa

/-- First device physical address of host memory (R238). -/
def hostBase : Nat := 2 ^ 51

/-- Key of a byte of host memory in `State.mem`. -/
def hostKey (pkg pasid a : Nat) : Nat := 2 ^ 61 + (pkg * 2 ^ 20 + pasid) * 2 ^ 51 + a

/-- R238: the place a device physical address reaches; none in the reserved range. -/
def physPlace (pkg pasid pa : Nat) : Option Place :=
  if pa < 2 ^ 39 then some (.hbm (fabric pkg pa))
  else if hostBase ≤ pa && pa < 2 ^ 52 then some (.host pkg pasid (pa - hostBase))
  else none

/-- The die key that is home of an HBM fabric address (R238). -/
def homeOf (fa : Nat) : Nat := fa / 2 ^ 52 * 4 + fa % 2 ^ 52 / 2 ^ 37

/-- The place `n` bytes further. -/
def Place.add : Place → Nat → Place
  | .spad c o, n => .spad c (o + n)
  | .hbm a, n => .hbm (a + n)
  | .host p q a, n => .host p q (a + n)

/-- Bytes performed at a place, as its home holds them. -/
def State.readPlace (s : State) (p : Place) (n : Nat) : List Byte :=
  match p with
  | .spad c o => Mem.bytes (s.core c).spad o n
  | .hbm a => Mem.bytes s.mem a n
  | .host k q a => Mem.bytes s.mem (hostKey k q a) n

/-- Write bytes at a place, as performed at its home. A write of bytes of a marked line leaves other lines' marks. -/
def State.writePlace (s : State) (p : Place) (bs : List Byte) : State :=
  match p with
  | .spad c o => s.modCore c (fun k => { k with spad := Mem.put k.spad o bs })
  | .hbm a => { s with mem := Mem.put s.mem a bs }
  | .host k q a => { s with mem := Mem.put s.mem (hostKey k q a) bs }

/-- The byte key by which two places are compared: core, or memory, and address. -/
def Place.key : Place → Nat × Nat
  | .spad c o => (c + 1, o)
  | .hbm a => (0, a)
  | .host k q a => (0, hostKey k q a)

/-- Bytes of `bs` at offset `o` replaced by the cells that lie in them. -/
def overlayCells (base : Nat) (bs : List Byte) : Mem → List Byte
  | [] => bs
  | (a, v) :: t =>
    overlayCells base (if base ≤ a && a < base + bs.length then spliceBytes bs (a - base) [v] else bs) t

/-- Pieces of an address range that lie in one aligned 128-byte block each: address and length; `fuel` bounds them. -/
def pieces : Nat → Nat → Nat → List (Nat × Nat)
  | 0, _, _ => []
  | fuel + 1, a, n =>
    if n = 0 then []
    else
      let k := min n (128 - a % 128)
      (a, k) :: pieces fuel (a + k) (n - k)

def blockPieces (a n : Nat) : List (Nat × Nat) := pieces (n / 128 + 2) a n

/-- R171, R237: physical scratchpad offset of allocation offset `x` for an allocation of `size` bytes at bank-local base
`base`. -/
def spadPhys (size base x : Nat) : Nat :=
  let sz := size / 8
  if sz = 0 then base + x else x / sz * 131072 + base + x % sz

end Sys2Proof.Machine
end

