-- ==== Sys2Proof/Machine/Formats.lean ====
section
/-!
DEFINITION. Number formats and exact arithmetic (R41 to R69): values as exact dyadic numbers, one rounding at the end of
each operation, the special values, L6, E8 scales, conversions and the correctly rounded functions.
-/

namespace Sys2Proof.Machine

/-- A floating-point value: NaN, an infinity, or ±m · 2^e exactly, zeros signed. -/
inductive Val where
  | nan
  | inf (neg : Bool)
  | fin (neg : Bool) (m : Nat) (e : Int)
  deriving DecidableEq, Repr

/-- R44, Table 2.2: exponent bits, fraction bits and bias of a format code 0 to 4. -/
structure FloatFormat where
  eb   : Nat
  fb   : Nat
  bias : Nat
  /-- E4M3: no infinities, one NaN magnitude -/
  e4m3 : Bool := false
  deriving DecidableEq, Repr

def fp32 : FloatFormat := { eb := 8, fb := 23, bias := 127 }
def bf16 : FloatFormat := { eb := 8, fb := 7, bias := 127 }
def fp16 : FloatFormat := { eb := 5, fb := 10, bias := 15 }
def e4m3 : FloatFormat := { eb := 4, fb := 3, bias := 7, e4m3 := true }
def e5m2 : FloatFormat := { eb := 5, fb := 2, bias := 15 }

/-- R41: the binary format of a code. -/
def floatFormat (code : Nat) : FloatFormat :=
  if code = 1 then bf16 else if code = 2 then fp16 else if code = 3 then e4m3 else if code = 4 then e5m2 else fp32

/-- R41: bits of an element by format code; 0 for a reserved code. -/
def formatBits (code : Nat) : Nat :=
  if code = 0 ∨ code = 0xA ∨ code = 0xB then 32 else if code = 1 ∨ code = 2 then 16
  else if code = 3 ∨ code = 4 ∨ code = 7 ∨ code = 8 ∨ code = 9 then 8
  else if code = 5 then 6 else if code = 6 ∨ code = 0xC ∨ code = 0xD then 64 else 0

namespace FloatFormat

def width (f : FloatFormat) : Nat := 1 + f.eb + f.fb
def signBit (f : FloatFormat) (neg : Bool) : Nat := if neg then 2 ^ (f.eb + f.fb) else 0
/-- R45: magnitude code of the largest finite value. -/
def maxCode (f : FloatFormat) : Nat := if f.e4m3 then 0x7E else (2 ^ f.eb - 1) * 2 ^ f.fb - 1
/-- R45: the canonical NaN. -/
def nan (f : FloatFormat) : Nat := if f.e4m3 then 0x7F else (2 ^ f.eb - 1) * 2 ^ f.fb + 2 ^ (f.fb - 1)
/-- R45: an infinity; E4M3 has none and gives its largest finite value (R60). -/
def infCode (f : FloatFormat) (neg : Bool) : Nat :=
  f.signBit neg + (if f.e4m3 then f.maxCode else (2 ^ f.eb - 1) * 2 ^ f.fb)
/-- Exponent of the smallest normal value. -/
def emin (f : FloatFormat) : Int := 1 - (f.bias : Int)

/-- The value of a code (R44, R45). -/
def value (f : FloatFormat) (code : Nat) : Val :=
  let neg := bitsOf code (f.eb + f.fb) 1 == 1
  let ex := bitsOf code f.fb f.eb
  let fr := bitsOf code 0 f.fb
  if f.e4m3 && ex * 2 ^ f.fb + fr == 0x7F then .nan
  else if !f.e4m3 && ex == 2 ^ f.eb - 1 then (if fr = 0 then .inf neg else .nan)
  else if ex = 0 then .fin neg fr (f.emin - f.fb)
  else .fin neg (2 ^ f.fb + fr) ((ex : Int) - f.bias - f.fb)

/-- The exponent of the last place of the format at a magnitude m · 2^e, m not 0. -/
def ulpExp (f : FloatFormat) (m : Nat) (e : Int) : Int := max (e + Nat.log2 m) f.emin - f.fb

/-- The code of q · 2^u, where u is the last place's exponent, or what replaces a value beyond the largest finite one. -/
def encode (f : FloatFormat) (neg : Bool) (q : Nat) (u : Int) (beyond : Nat) : Nat :=
  let code := ((u + f.fb + f.bias).toNat - 1) * 2 ^ f.fb + q
  if f.maxCode < code then beyond else f.signBit neg + code

/-- R56: the code of a result beyond the largest finite value, by rounding mode. -/
def overflow (f : FloatFormat) (rm : Nat) (neg : Bool) : Nat :=
  if f.e4m3 then f.signBit neg + f.maxCode
  else if rm = 1 ∨ (rm = 2 ∧ neg) ∨ (rm = 3 ∧ !neg) then f.signBit neg + f.maxCode
  else f.infCode neg

end FloatFormat

/-- R55: whether a truncated magnitude goes up: mode, sign, truncated magnitude, discarded part and its unit. -/
def roundUp (rm : Nat) (neg : Bool) (q r unit : Nat) : Bool :=
  if r = 0 then false
  else if rm = 0 then decide (unit < 2 * r) || (decide (2 * r = unit) && q % 2 == 1)
  else if rm = 2 then !neg
  else if rm = 3 then neg
  else false

/-- m · 2^e as an integer and a remainder: quotient by 2^u, discarded part, unit of the discarded part. -/
def splitAt2 (m : Nat) (e u : Int) : Nat × Nat × Nat :=
  if u ≤ e then (m * 2 ^ (e - u).toNat, 0, 1)
  else
    let unit := 2 ^ (u - e).toNat
    (m / unit, m % unit, unit)

/-- R55, R56: round a finite exact value to a format under RN, RZ, RU or RD. -/
def roundFin (f : FloatFormat) (rm : Nat) (neg : Bool) (m : Nat) (e : Int) : Nat :=
  if m = 0 then f.signBit neg
  else
    let u := f.ulpExp m e
    let p := splitAt2 m e u
    let q := if roundUp rm neg p.1 p.2.1 p.2.2 then p.1 + 1 else p.1
    f.encode neg q u (f.overflow rm neg)

/-- R57: stochastic rounding of a finite value whose source's last place is 2^lsb, with random word `w`. DEDUCED: where
u ≤ lsb and the value is still no value of the format (an exact scaled product of `mdrain`), R57's "return x" cannot be
obeyed, and the value rounds to nearest (log entry 39). -/
def roundSR (f : FloatFormat) (neg : Bool) (m : Nat) (e lsb : Int) (w : Nat) : Nat :=
  if m = 0 then f.signBit neg
  else
    let u := f.ulpExp m e
    if u ≤ lsb then roundFin f 0 neg m e
    else
      let n := min (u - lsb).toNat 32
      let y := (splitAt2 m e (u - n)).1
      f.encode neg ((y + w % 2 ^ n) / 2 ^ n) u (f.overflow 0 neg)

/-- Round any value to a format (R60): specials convert, finite values round; SR takes the source's last place and the
random word. -/
def roundVal (f : FloatFormat) (rm : Nat) (lsb : Int) (w : Nat) : Val → Nat
  | .nan => f.nan
  | .inf neg => f.infCode neg
  | .fin neg m e => if rm = 4 then roundSR f neg m e lsb w else roundFin f rm neg m e

/-- R57: the last place of a finite value of a source format at its magnitude. -/
def sourceLsb (f : FloatFormat) : Val → Int
  | .fin _ m e => if m = 0 then f.emin - f.fb else f.ulpExp m e
  | _ => 0

-- exact arithmetic

def Val.neg : Val → Val
  | .nan => .nan
  | .inf n => .inf (!n)
  | .fin n m e => .fin (!n) m e

def Val.isZero : Val → Bool
  | .fin _ 0 _ => true
  | _ => false

/-- The exact product (R46, R62). -/
def Val.mul : Val → Val → Val
  | .nan, _ => .nan
  | _, .nan => .nan
  | .inf a, .inf b => .inf (a != b)
  | .inf a, .fin b m _ => if m = 0 then .nan else .inf (a != b)
  | .fin a m _, .inf b => if m = 0 then .nan else .inf (a != b)
  | .fin a m e, .fin b n f => .fin (a != b) (m * n) (e + f)

/-- Scaling by a power of two is exact. -/
def Val.scale (k : Int) : Val → Val
  | .fin n m e => .fin n m (e + k)
  | v => v

def Val.exp : Val → Int
  | .fin _ _ e => e
  | _ => 0

/-- The integer value of a term in units of 2^u, u at most its exponent. -/
def Val.units (u : Int) : Val → Int
  | .fin n m e => let k : Int := m * 2 ^ (e - u).toNat; if n then -k else k
  | _ => 0

/-- R55: the sign of an exact zero sum: the common sign of zero addends, else − under RD only. -/
def zeroSign (rm : Nat) (ts : List Val) : Bool :=
  let isZ (n : Bool) (v : Val) : Bool := match v with | .fin b 0 _ => b == n | _ => false
  if ts.all (isZ true) && !ts.isEmpty then true
  else if ts.all (isZ false) then false
  else rm == 3

/-- R62: an exact sum of terms rounded once to FP32. -/
def sumRound (rm : Nat) (ts : List Val) : Nat :=
  if ts.contains .nan || (ts.contains (.inf true) && ts.contains (.inf false)) then fp32.nan
  else if ts.contains (.inf true) then fp32.infCode true
  else if ts.contains (.inf false) then fp32.infCode false
  else
    let u : Int := ts.foldl (fun m t => min m t.exp) 0
    let k : Int := ts.foldl (fun a t => a + t.units u) 0
    if k = 0 then fp32.signBit (zeroSign rm ts) else roundFin fp32 rm (decide (k < 0)) k.natAbs u

/-- An FP32 code as a value. -/
def val32 (b : Nat) : Val := fp32.value (b % 2 ^ 32)

def addF (rm a b : Nat) : Nat := sumRound rm [val32 a, val32 b]
def subF (rm a b : Nat) : Nat := sumRound rm [val32 a, (val32 b).neg]
def fmaF (rm a b c : Nat) : Nat := sumRound rm [(val32 a).mul (val32 b), val32 c]
def mulF (rm a b : Nat) : Nat := roundVal fp32 rm 0 0 ((val32 a).mul (val32 b))

/-- Order of two values that are no NaN: their exact difference's sign, −1, 0 or 1. -/
def Val.cmp : Val → Val → Int
  | .inf a, .inf b => if a = b then 0 else if a then -1 else 1
  | .inf a, _ => if a then -1 else 1
  | _, .inf b => if b then 1 else -1
  | a, b =>
    let u := min a.exp b.exp
    let d := a.units u - b.units u
    if d < 0 then -1 else if 0 < d then 1 else 0

/-- R47: minimum and maximum of FP32 codes. -/
def minmaxF (max_ : Bool) (a b : Nat) : Nat :=
  match val32 a, val32 b with
  | .nan, .nan => fp32.nan
  | .nan, _ => b
  | _, .nan => a
  | x, y =>
    if x.isZero && y.isZero then
      let na := bitsOf a 31 1 == 1
      let nb := bitsOf b 31 1 == 1
      if max_ then fp32.signBit (na && nb) else fp32.signBit (na || nb)
    else if x.cmp y = 0 then a
    else if (x.cmp y < 0) != max_ then a else b

/-- R47, R161: the comparisons of `vfcmp.cc` by code. -/
def compareF (cc a b : Nat) : Bool :=
  match val32 a, val32 b with
  | .nan, _ => cc == 1
  | _, .nan => cc == 1
  | x, y =>
    let d := x.cmp y
    if cc = 0 then d == 0 else if cc = 1 then d != 0 else if cc = 2 then decide (d < 0) else if cc = 3 then decide (0 ≤ d)
    else if cc = 6 then decide (0 < d) else decide (d ≤ 0)

-- L6

/-- R51: T of a quarter step. -/
def l6T (f : Nat) : Nat := if f = 0 then 32768 else if f = 1 then 38968 else if f = 2 then 46341 else 55109

/-- R51: the machine value of an L6 code. -/
def l6Value (c : Nat) : Val :=
  let neg := bitsOf c 5 1 == 1
  let m := c % 32
  if m = 0 then .fin neg 0 0
  else
    let q : Int := (m : Int) - 16
    .fin neg (l6T (q % 4).toNat) (q / 4 - 15)

/-- R53: ToL6 of a finite value or an infinity. -/
def toL6 : Val → Nat
  | .nan => 0
  | .inf neg => (if neg then 32 else 0) + 31
  | .fin neg m e =>
    let s := if neg then 32 else 0
    if m = 0 then s
    else
      let l := Nat.log2 m
      let ex : Int := e + l
      let below (k : Nat) : Bool := decide (m * 2 ^ 23 < k * 2 ^ l)
      let j : Int := if below 0x8B95C2 then 0 else if below 0xA5FED7 then 1 else if below 0xC5672A then 2
        else if below 0xEAC0C7 then 3 else 4
      let mag : Int := 4 * ex + j + 16
      if mag ≤ 0 then s else s + (min mag 31).toNat

/-- R54: the integer term of two L6 codes, in units of 2^−23. -/
def l6Term (a b : Nat) : Int :=
  if a % 32 = 0 ∨ b % 32 = 0 then 0
  else
    let q : Int := ((a % 32 : Nat) : Int) + ((b % 32 : Nat) : Int) - 32
    let t : Int := (l6T (q % 4).toNat : Nat) * 2 ^ (q / 4 + 8).toNat
    if bitsOf a 5 1 = bitsOf b 5 1 then t else -t

/-- An integer times a power of two as a value. -/
def Val.ofInt (k : Int) (e : Int) : Val := .fin (decide (k < 0)) k.natAbs e

-- conversions (R60)

/-- The signed or unsigned range of an integer format code. -/
def intRange (code : Nat) : Int × Int :=
  if code = 8 then (-128, 127) else if code = 9 then (0, 255) else if code = 0xA then (-2147483648, 2147483647)
  else if code = 0xB then (0, 4294967295) else if code = 0xC then (-9223372036854775808, 9223372036854775807)
  else (0, 18446744073709551615)

def isIntFormat (code : Nat) : Bool := decide (8 ≤ code) && decide (code ≤ 0xD)
def isFloatFormat (code : Nat) : Bool := decide (code ≤ 4)

/-- Saturate to an integer format and give its code. -/
def saturate (code : Nat) (k : Int) : Nat :=
  let r := intRange code
  let v := if k < r.1 then r.1 else if r.2 < k then r.2 else k
  (v % (2 ^ formatBits code : Nat)).toNat

/-- The integer a code of an integer format stands for. -/
def intValue (code c : Nat) : Int :=
  let n := formatBits code
  if code % 2 = 0 then signedOf n c else ((c % 2 ^ n : Nat) : Int)

/-- R60: a finite value rounded to an integer by a mode; SR with u = 1. -/
def roundToInt (rm : Nat) (lsb : Int) (w : Nat) (neg : Bool) (m : Nat) (e : Int) : Int :=
  let q : Nat :=
    if rm = 4 then
      (if 0 ≤ lsb then (splitAt2 m e 0).1
       else
        let n := min (-lsb).toNat 32
        ((splitAt2 m e (-(n : Int))).1 + w % 2 ^ n) / 2 ^ n)
    else
      let p := splitAt2 m e 0
      if roundUp rm neg p.1 p.2.1 p.2.2 then p.1 + 1 else p.1
  if neg then -(q : Int) else q

/-- R60: an integer of one integer format in another: in a wider one sign- or zero-extended, in a narrower one saturated
(DEDUCED: R60 names no rule for an integer format of equal width and the other sign; it saturates too, log entry 37). -/
def intToInt (src dst : Nat) (k : Int) : Nat :=
  if formatBits src < formatBits dst then (k % (2 ^ formatBits dst : Nat)).toNat else saturate dst k

/-- R60: convert a code of one format to another, by mode, with a random word for SR. -/
def convert (src dst rm w c : Nat) : Nat :=
  if isIntFormat src then
    let k := intValue src c
    if isIntFormat dst then intToInt src dst k
    else roundVal (floatFormat dst) rm 0 w (Val.ofInt k 0)
  else
    let v := if src = 5 then l6Value c else (floatFormat src).value c
    let lsb := sourceLsb (floatFormat src) v
    if dst = 5 then toL6 v
    else if isIntFormat dst then
      match v with
      | .nan => 0
      | .inf neg => saturate dst (if neg then (intRange dst).1 else (intRange dst).2)
      | .fin neg m e => saturate dst (roundToInt rm lsb w neg m e)
    else if dst = 0 && src = 5 then roundVal fp32 0 0 0 v
    else roundVal (floatFormat dst) rm lsb w v

-- correctly rounded functions (R67)

/-- Newton's iteration for the integer square root, from above. -/
def isqrtFrom : Nat → Nat → Nat → Nat
  | 0, _, x => x
  | fuel + 1, n, x => let y := (x + n / x) / 2; if y < x then isqrtFrom fuel n y else x

/-- The integer square root of a number. -/
def isqrt (n : Nat) : Nat := if n = 0 then 0 else isqrtFrom 64 n (2 ^ (Nat.log2 n / 2 + 1))

/-- R67: 1/x. -/
def rcpF (a : Nat) : Nat :=
  match val32 a with
  | .nan => fp32.nan
  | .inf n => fp32.signBit n
  | .fin n m e =>
    if m = 0 then fp32.infCode n
    else
      let q := 2 ^ 100 / m
      let sticky := if 2 ^ 100 % m = 0 then 0 else 1
      roundFin fp32 0 n (2 * q + sticky) (-e - 101)

/-- R67: 1/√x. -/
def rsqF (a : Nat) : Nat :=
  match val32 a with
  | .nan => fp32.nan
  | .inf n => if n then fp32.nan else 0
  | .fin n m e =>
    if m = 0 then fp32.infCode n
    else if n then fp32.nan
    else
      -- x = m' · 2^(2h) with h whole
      let odd := e % 2 = 1
      let m' := if odd then 2 * m else m
      let h : Int := (if odd then e - 1 else e) / 2
      let n2 := 2 ^ 200 / m'
      let r := isqrt n2
      let sticky := if r * r * m' = 2 ^ 200 then 0 else 1
      roundFin fp32 0 false (2 * r + sticky) (-h - 101)

/-- 2^f for the bits of a fraction, most significant first, in units of 2^−256: `c` is 2^(2^−i). -/
def exp2Bits : Nat → Nat → Nat → Nat → Nat
  | 0, _, _, acc => acc
  | k + 1, f, c, acc =>
    let c' := isqrt (c * 2 ^ 256)
    exp2Bits k f c' (if f / 2 ^ k % 2 = 1 then acc * c' / 2 ^ 256 else acc)

/-- R67: 2^x. -/
def exp2F (a : Nat) : Nat :=
  match val32 a with
  | .nan => fp32.nan
  | .inf n => if n then 0 else fp32.infCode false
  | .fin n m e =>
    if m = 0 then 0x3F800000
    else if 8 ≤ e + Nat.log2 m then (if n then 0 else fp32.infCode false)
    else
      -- x in units of 2^−160, exactly: the least exponent is −149
      let k : Int := (Val.fin n m e).units (-160)
      let whole := k / (2 ^ 160 : Nat)
      let frac := (k % (2 ^ 160 : Nat)).toNat
      if frac = 0 then roundFin fp32 0 false 1 whole
      else roundFin fp32 0 false (2 * exp2Bits 160 frac (2 * 2 ^ 256) (2 ^ 256) + 1) (whole - 257)

/-- Bits of log2 of y in [1, 2), y in units of 2^−400. -/
def log2Bits : Nat → Nat → Nat → Nat
  | 0, _, acc => acc
  | k + 1, y, acc =>
    let z := y * y / 2 ^ 400
    if 2 * 2 ^ 400 ≤ z then log2Bits k (z / 2) (2 * acc + 1) else log2Bits k z (2 * acc)

/-- R67: log2 x. -/
def log2F (a : Nat) : Nat :=
  match val32 a with
  | .nan => fp32.nan
  | .inf n => if n then fp32.nan else fp32.infCode false
  | .fin n m e =>
    if m = 0 then fp32.infCode true
    else if n then fp32.nan
    else
      let l := Nat.log2 m
      let whole : Int := e + l
      if m = 2 ^ l then (if whole = 0 then 0 else roundFin fp32 0 (decide (whole < 0)) whole.natAbs 0)
      else
        let t : Int := whole * (2 ^ 160 : Nat) + log2Bits 160 (m * 2 ^ 400 / 2 ^ l) 0
        let k := 2 * t + 1
        roundFin fp32 0 (decide (k < 0)) k.natAbs (-161)

-- Philox (R58)

/-- One round of Philox4x32 on a counter, with a key. -/
def philoxRound (c : Nat × Nat × Nat × Nat) (k : Nat × Nat) : Nat × Nat × Nat × Nat :=
  let p0 := 0xD2511F53 * c.1
  let p1 := 0xCD9E8D57 * c.2.2.1
  (Nat.xor (Nat.xor (p1 / 2 ^ 32) c.2.1) k.1, p1 % 2 ^ 32,
   Nat.xor (Nat.xor (p0 / 2 ^ 32) c.2.2.2) k.2, p0 % 2 ^ 32)

def philoxRounds : Nat → Nat × Nat × Nat × Nat → Nat × Nat → Nat × Nat × Nat × Nat
  | 0, c, _ => c
  | n + 1, c, k =>
    philoxRounds n (philoxRound c k) ((k.1 + 0x9E3779B9) % 2 ^ 32, (k.2 + 0xBB67AE85) % 2 ^ 32)

/-- R58: the four words of counter j of fill count F. -/
def philoxWords (key f j : Nat) : Nat × Nat × Nat × Nat :=
  philoxRounds 10 (f % 2 ^ 32, f / 2 ^ 32 % 2 ^ 32, j, 0) (key % 2 ^ 32, key / 2 ^ 32 % 2 ^ 32)

/-- R58: FillEntry, word l of the entry in bits [32l + 31 : 32l]. -/
def fillEntry (key f : Nat) : Nat → Nat
  | 0 => 0
  | n + 1 =>
    let w := philoxWords key f n
    fillEntry key f n + (w.1 + w.2.1 * 2 ^ 32 + w.2.2.1 * 2 ^ 64 + w.2.2.2 * 2 ^ 96) * 2 ^ (128 * n)

end Sys2Proof.Machine
end

