-- ==== Sys2Proof/Machine/Flags.lean ====
section
/-!
DEFINITION. Condition codes (Table 4.3), carry out of `addx` (R101), the sticky bits QSAT and TERR (R69, R107), and the
predicate registers (R14, R105).
-/

namespace Sys2Proof.Machine

/-- Table 4.3: the condition of A against B at any width. -/
def condHolds {w : Nat} (cc : Nat) (a b : BitVec w) : Bool :=
  if cc = 0 then a == b
  else if cc = 1 then a != b
  else if cc = 2 then a.slt b
  else if cc = 3 then b.sle a
  else if cc = 4 then a.ult b
  else if cc = 5 then b.ule a
  else if cc = 6 then b.slt a
  else if cc = 7 then a.sle b
  else if cc = 8 then b.ult a
  else a.ule b

/-- R101: the 65-bit sum of `addx`. -/
def addxSum (a b : Word) (c : Bool) : BitVec 65 :=
  a.setWidth 65 + b.setWidth 65 + (if c then 1 else 0)

/-- R14: predicate k of the register of predicates; p0 reads true. -/
def readP (p : BitVec 8) (k : Nat) : Bool := k == 0 || p.getLsbD k

/-- R14: write predicate k; a write of p0 has no effect. -/
def writeP (p : BitVec 8) (k : Nat) (v : Bool) : BitVec 8 :=
  if k = 0 then p
  else if v then p ||| BitVec.ofNat 8 (2 ^ k) else p &&& ~~~ BitVec.ofNat 8 (2 ^ k)

/-- R69: QSAT set in FSTAT. -/
def setQsat (fstat : Word) : Word := fstat ||| 1

/-- Table 2.7: what `puts FSTAT` leaves: bit 0 only. -/
def fstatWrite (v : Word) : Word := v &&& 1

/-- R107: a write of 1 to a TERR bit clears it. -/
def terrWrite (terr : BitVec 8) (v : Word) : BitVec 8 := terr &&& ~~~ v.setWidth 8

/-- R190: TERR[n] set. -/
def terrSet (terr : BitVec 8) (n : Nat) : BitVec 8 := terr ||| BitVec.ofNat 8 (2 ^ n)

end Sys2Proof.Machine
end

