-- ==== Sys2Proof/Machine/Translate.lean ====
section
/-!
DEFINITION. Where an address leads: scratchpad apertures (R237), page tables and their walk (R342 to R346), the micro-TLB
and the die TLB (R347), permissions, and the bytes a context or an engine reads there (R31, R251).
-/

namespace Sys2Proof.Machine

/-- Trap causes (Table 15.3). -/
def cIllegal : Nat := 0x01
def cPool : Nat := 0x02
def cSchedule : Nat := 0x03
def cResource : Nat := 0x04
def cStream : Nat := 0x05
def cTranslation : Nat := 0x06
def cProtection : Nat := 0x07
def cAlignment : Nat := 0x08
def cStale : Nat := 0x09
def cScope : Nat := 0x0A
def cAtomic : Nat := 0x0B
def cSwTrap : Nat := 0x0C
def cImem : Nat := 0x0D
def cData : Nat := 0x0E
def cRace : Nat := 0x0F
def cSluice : Nat := 0x10

/-- R345: what an access needs of a leaf. -/
inductive Access where
  | read
  | write
  | both
  deriving DecidableEq, Repr

/-- Where a walk or a translation ends. -/
inductive Reach where
  | ok (t : Target)
  | trap (cause : Nat)
  /-- not translated yet: the micro-TLB misses, or the leaf migrates (R347, R350) -/
  | miss
  deriving DecidableEq, Repr

/-- The end of a page walk: a leaf with the first virtual address and the size of its page, a failure (always
TRANSLATION), or a leaf that migrates. -/
inductive Walk where
  | leaf (va size : Nat) (e : BitVec 64)
  | fail
  | mig
  deriving DecidableEq, Repr

-- fields of a page-table entry (Table 15.9)
def pteValid (e : BitVec 64) : Bool := e.getLsbD 0
def pteLeaf (e : BitVec 64) : Bool := e.getLsbD 1
def pteR (e : BitVec 64) : Bool := e.getLsbD 2
def pteW (e : BitVec 64) : Bool := e.getLsbD 3
def ptePC (e : BitVec 64) : Bool := e.getLsbD 5
def pteRace (e : BitVec 64) : Nat := bitsOf e.toNat 6 2
def pteMig (e : BitVec 64) : Bool := e.getLsbD 8
def ptePkg (e : BitVec 64) : Nat := bitsOf e.toNat 52 9
/-- ADDR of a table entry: the next table's physical address. -/
def pteTable (e : BitVec 64) : Nat := bitsOf e.toNat 13 39 * 2 ^ 13
/-- ADDR of a leaf. -/
def ptePage (e : BitVec 64) : Nat := bitsOf e.toNat 16 36 * 2 ^ 16

/-- R344: a well-formed table entry uses only V, LEAF and ADDR. -/
def tableOk (e : BitVec 64) : Bool :=
  bitsOf e.toNat 2 11 == 0 && bitsOf e.toNat 52 12 == 0 && decide (pteTable e < 2 ^ 39)

/-- R312: the driver has accepted a feature bit below 64 in a package. -/
def State.accepts (s : State) (pkg bit : Nat) : Bool := ((s.pkg pkg).regs.get 0x20 0).getLsbD bit

/-- R344, R345, R98: a well-formed leaf of a page of `size` bytes, as a package sees it. -/
def leafOk (s : State) (pkg size : Nat) (e : BitVec 64) : Bool :=
  bitsOf e.toNat 61 3 == 0 && bitsOf e.toNat 9 4 == 0 && !e.getLsbD 4 && pteRace e != 3 &&
  (pteRace e == 0 || s.accepts pkg 4) &&
  bitsOf e.toNat 13 3 == 0 && ptePage e % size == 0 && s.reaches pkg (ptePkg e) &&
  (decide (ptePage e < hostBase) || ptePkg e == pkg)

/-- An 8-byte word of a package's own HBM. -/
def State.hbmWord (s : State) (pkg pa : Nat) : Nat := Mem.nat s.mem (fabric pkg pa) 8

/-- One level of a walk, to the leaf whether or not it migrates; `shift` is the lowest bit of the level's index. -/
def walkLevels (s : State) (pkg va : Nat) : Nat → Nat → Nat → Walk
  | 0, _, _ => .fail
  | n + 1, table, shift =>
    let e := BitVec.ofNat 64 (s.hbmWord pkg (table + 8 * (va / 2 ^ shift % 1024)))
    if !pteValid e then .fail
    else if pteLeaf e then
      if shift = 46 then .fail
      else if !leafOk s pkg (2 ^ shift) e then .fail
      else .leaf (va / 2 ^ shift * 2 ^ shift) (2 ^ shift) e
    else if n = 0 then .fail
    else if !tableOk e then .fail
    else walkLevels s pkg va n (pteTable e) (shift - 10)

/-- R346: the process-table entry of a PASID holds VALID. -/
def State.pasidValid (s : State) (pkg pasid : Nat) : Bool := s.hbmWord pkg (16 * pasid) % 2 == 1

/-- R343: the leaf of an address, found from the process table. -/
def leafAt (s : State) (pkg pasid va : Nat) : Walk :=
  let e := s.hbmWord pkg (16 * pasid)
  if e % 2 = 0 then .fail else walkLevels s pkg va 4 (bitsOf e 13 39 * 2 ^ 13) 46

/-- R343, R350: a walk, held by a leaf that migrates. -/
def walk (s : State) (pkg pasid va : Nat) : Walk :=
  match leafAt s pkg pasid va with
  | .leaf w n e => if pteMig e then .mig else .leaf w n e
  | r => r

/-- A cached translation that covers an address. -/
def tlbFind (pasid va : Nat) : List TlbEntry → Option TlbEntry
  | [] => none
  | t :: ts => if t.pasid = pasid && t.va ≤ va && va < t.va + t.size then some t else tlbFind pasid va ts

/-- R347: insert a translation; a full TLB or set drops its oldest. -/
def tlbFill (cap : Nat) (t : TlbEntry) (l : List TlbEntry) : List TlbEntry :=
  (t :: l.filter (fun y => !(y.pasid == t.pasid && y.va == t.va && y.size == t.size))).take cap

/-- R343: the page sizes of leaves. -/
def pageSizes : List Nat := [2 ^ 16, 2 ^ 26, 2 ^ 36]

/-- R347: the set of a die TLB for an address on a page of a size. -/
def tlbSet (pasid va size : Nat) : Nat := Config.freeTlbSet pasid (va / size) size % Config.dieTlbSets

/-- R347: the translation of an address that a die TLB holds. -/
def Die.tlbFind (d : Die) (pasid va : Nat) : Option TlbEntry :=
  pageSizes.findSome? (fun n => Machine.tlbFind pasid va ((d.tlb.get (tlbSet pasid va n) []).filter (fun t => t.size == n)))

/-- R347: a die TLB takes a translation. -/
def Die.tlbFill (d : Die) (t : TlbEntry) : Die :=
  let k := tlbSet t.pasid t.va t.size
  { d with tlb := d.tlb.set k (Machine.tlbFill Config.dieTlbWays t (d.tlb.get k [])) }

/-- The translations that a die TLB holds. -/
def Die.tlbAll (d : Die) : List TlbEntry := d.tlb.flatMap (·.2)

/-- R345: the leaf allows the access. -/
def allowed (a : Access) (e : BitVec 64) : Bool :=
  match a with
  | .read => pteR e
  | .write => pteW e
  | .both => pteR e && pteW e

/-- R355, R369: an HBM address of a base die that is out of service is reserved, and one in a bank that is held out (log entry 118). -/
def State.reserved (s : State) (p : Place) : Bool :=
  match p with
  | .hbm a =>
    let d := s.die (homeOf a)
    d.hbmOut || (!d.banksOut.isEmpty && d.banksOut.contains (Config.freeRow (a % 2 ^ 37) / 2 ^ 20))
  | _ => false

/-- The target of an address under the leaf of a page of `size` bytes from `pva`, or the cause (R345, R238). -/
def leafTarget (s : State) (pkg pasid va pva size : Nat) (e : BitVec 64) (a : Access) : Reach :=
  if !s.reaches pkg (ptePkg e) then .trap cTranslation
  else if !allowed a e then .trap cProtection
  else
    match physPlace (ptePkg e) pasid (ptePage e + (va - pva)) with
    | none => .trap cProtection
    | some p => if s.reserved p then .trap cProtection
      else .ok { place := p, pc := ptePC e, race := pteRace e, page := some (pasid, pva, size) }

/-- R237: the core, context and allocation offset that an aperture address of a context names. -/
def apertureOf (ck x va : Nat) : Option (Nat × Nat × Nat) :=
  if 0x00FE000000000000 ≤ va ∧ va < 0x00FE010000000000 then
    let y := va - 0x00FE000000000000
    some (512 * (y / 2 ^ 31) + y / 2 ^ 22 % 512, y / 2 ^ 20 % 4, y % 2 ^ 20)
  else if 0x00FF000000000000 ≤ va ∧ va < 0x00FF000000100000 then some (ck, x, va - 0x00FF000000000000)
  else none

/-- R237: what the apertures make of an address; none when it is translated. -/
def aperture (s : State) (ck x va : Nat) : Option Reach :=
  let named (tk tx off : Nat) : Reach :=
    let c := s.ctx tk tx
    if !c.resident || c.pasid != (s.ctx ck x).pasid || decide (c.win.spad ≤ off) then .trap cProtection
    else .ok { place := .spad tk (spadPhys c.win.spad c.base off) }
  if va < 0x00FE000000000000 then none
  else if va < 0x00FE010000000000 then
    let y := va - 0x00FE000000000000
    let pkg := y / 2 ^ 31
    if !s.reaches (pkgOf ck) pkg then some (.trap cTranslation)
    else some (named (512 * pkg + y / 2 ^ 22 % 512) (y / 2 ^ 20 % 4) (y % 2 ^ 20))
  else if 0x00FF000000000000 ≤ va && va < 0x00FF000000100000 then
    some (named ck x (va - 0x00FF000000000000))
  else some (.trap cTranslation)

/-- R125 step 3 for a context: the aperture, or the micro-TLB and then the die TLB. -/
def reach (s : State) (ck x va : Nat) (a : Access) : Reach :=
  if 2 ^ 56 ≤ va then .trap cTranslation
  else
    match aperture s ck x va with
    | some r => r
    | none =>
      let c := s.ctx ck x
      match c.walkFail with
      | some (w, cause) =>
        if w / 65536 = va / 65536 then .trap cause
        else
          match tlbFind c.pasid va (s.core ck).tlb with
          | some t => leafTarget s (pkgOf ck) c.pasid va t.va t.size t.leaf a
          | none => .miss
      | none =>
        match tlbFind c.pasid va (s.core ck).tlb with
        | some t => leafTarget s (pkgOf ck) c.pasid va t.va t.size t.leaf a
        | none => .miss

/-- Translation by a process of a package outside a core: what the die's TLB holds, or a walk. `miss` means that the leaf
migrates. -/
def reachVirt (s : State) (pkg pasid va : Nat) (hit : Option TlbEntry) (a : Access) : Reach :=
  if 2 ^ 56 ≤ va then .trap cTranslation
  else
    match hit with
    | some t => leafTarget s pkg pasid va t.va t.size t.leaf a
    | none =>
      match walk s pkg pasid va with
      | .leaf w n e => leafTarget s pkg pasid va w n e a
      | .fail => .trap cTranslation
      | .mig => .miss

/-- R237, R345: where an address of an engine command of a context leads. -/
def reachEng (s : State) (ck x va : Nat) (a : Access) : Reach :=
  if 2 ^ 56 ≤ va then .trap cTranslation
  else
    match aperture s ck x va with
    | some r => r
    | none => reachVirt s (pkgOf ck) (s.ctx ck x).pasid va ((s.die (dieOf ck)).tlbFind (s.ctx ck x).pasid va) a

/-- R347: an access of the transfer unit or of an engine has used an address: a walk of it fills the die TLB, and for the core's
own accesses (`micro`) the micro-TLB too. -/
def tlbUse (s : State) (ck x va : Nat) (micro : Bool) : State :=
  let p := (s.ctx ck x).pasid
  let dk := dieOf ck
  let fillMicro (t : TlbEntry) (s : State) : State :=
    if micro then s.modCore ck (fun k => { k with tlb := tlbFill Config.microTlb t k.tlb }) else s
  if (aperture s ck x va).isSome || (micro && (tlbFind p va (s.core ck).tlb).isSome) then s
  else
    match (s.die dk).tlbFind p va with
    | some t => fillMicro t s
    | none =>
      match walk s (pkgOf ck) p va with
      | .leaf w n e =>
        let t : TlbEntry := { pasid := p, va := w, size := n, leaf := e }
        fillMicro t (s.modDie dk (fun d => d.tlbFill t))
      | _ => s

/-- A line of memory marked uncorrectable (R360), or a scratchpad word (R359). -/
def State.marked (s : State) (p : Place) (n : Nat) : Bool :=
  match p with
  | .spad c o => (s.core c).spadUE.any (fun w => o / 4 ≤ w && w ≤ (o + n - 1) / 4)
  | .hbm a => s.poison.any (fun l => a / 128 ≤ l && l ≤ (a + n - 1) / 128)
  | .host _ _ _ => false

/-- Bytes at a place as seen from a die: the stores its slices hold lie over the home's bytes (R251, point 1). -/
def State.dieView (s : State) (dk : Nat) (p : Place) (n : Nat) : List Byte :=
  let k := p.key
  (s.die dk).slice.foldl (fun bs st => if st.place.key.1 = k.1 then overlayCells k.2 bs st.cells else bs)
    (s.readPlace p n)

/-- Bytes at a target as a die reads them: of a race-checked page the home's, where every access performs (R260). -/
def State.dieSees (s : State) (dk : Nat) (t : Target) (n : Nat) : List Byte :=
  if t.race = 0 then s.dieView dk t.place n else s.readPlace t.place n

/-- A store that waits behind an output entry (R245). -/
def Released.store? : Released → Option Store
  | .store st => some st
  | .entry _ => none

/-- An output entry that waits to be drained. -/
def Released.entry? : Released → Option Held
  | .entry h => some h
  | .store _ => none

/-- Stores that the transfer unit of a context sees over what its die reads, in order: its core's handed-over stores (R251, point
0), and its own that wait behind output entries. Of a race-checked page they are its own only, wherever they are on the way to the
home (R245, R260). -/
def State.handedStores (s : State) (ck x : Nat) (t : Target) : List Store :=
  let c := s.core ck
  let mine (st : Store) := st.core == ck && st.ctx == x
  (if t.race = 0 then c.hand else (s.die (dieOf ck)).slice.filter mine ++ c.hand.filter mine) ++
  (c.ctx x).released.filterMap Released.store?

/-- R31: a context's own accesses see its withheld stores over those. -/
def State.ownStores (s : State) (ck x : Nat) (t : Target) : List Store :=
  s.handedStores ck x t ++ (s.core ck).wbuf.filter (fun st => st.ctx == x)

/-- Bytes of stores over bytes already read at a place. -/
def overlayStores (l : List Store) (p : Place) (bs : List Byte) : List Byte :=
  let k := p.key
  l.foldl (fun bs st => if st.place.key.1 = k.1 then overlayCells k.2 bs st.cells else bs) bs

/-- Bytes at a target as a context sees them past L1. -/
def State.ctxView (s : State) (ck x : Nat) (t : Target) (n : Nat) : List Byte :=
  overlayStores (s.ownStores ck x t) t.place (s.dieSees (dieOf ck) t n)

/-- Translation for the device itself (front end, queues, firmware) in a process: no aperture names a context here. -/
def reachProc (s : State) (pkg pasid va : Nat) (a : Access) : Reach :=
  if 0x00FE000000000000 ≤ va then .trap cTranslation else reachVirt s pkg pasid va none a

/-- A process of a package reads a virtual range (front end, queues, firmware): the home's bytes, or the code of the
fault; code 0 says that a page migrates and the read waits. -/
def procReadPieces (s : State) (pkg pasid : Nat) : List (Nat × Nat) → Except Nat (List Byte)
  | [] => .ok []
  | (a, n) :: t =>
    match reachProc s pkg pasid a .read with
    | .miss => .error 0
    | .trap c => .error c
    | .ok g =>
      if s.marked g.place n then .error cData
      else
        match procReadPieces s pkg pasid t with
        | .error c => .error c
        | .ok bs => .ok (s.readPlace g.place n ++ bs)

/-- R350: a write of the process that waits for a migrating page overlaps the range. -/
def heldWrite (s : State) (pkg pasid a n : Nat) : Bool :=
  s.devHeld.any (fun w => w.pkg == pkg && w.pasid == pasid && decide (w.va < a + n) && decide (a < w.va + w.bytes.length))

def procRead (s : State) (pkg pasid a n : Nat) : Except Nat (List Byte) :=
  if heldWrite s pkg pasid a n then .error 0 else procReadPieces s pkg pasid (blockPieces a n)

/-- R350: a read of a process waits for a migrating page. -/
def readWaits (s : State) (pkg pasid a n : Nat) : Bool :=
  match procRead s pkg pasid a n with
  | .error 0 => true
  | _ => false

end Sys2Proof.Machine
end

