-- ==== Sys2Proof/Machine/Scopes.lean ====
section
/-!
DEFINITION. Scope entries (R247 to R254), acknowledgement of stores (R251), and the levels' barriers as far as joining,
arriving and leaving go (R225, R226).
-/

namespace Sys2Proof.Machine

/-- R248: the fields of a scope descriptor of 160 bytes. -/
def scopeOfBytes (bs : List Byte) : Scope :=
  let fl := fieldAt bs 2 2
  { point := fieldAt bs 0 1 % 8
    gen := fieldAt bs 1 1 % 16
    set := fl % 2 == 1
    stale := fl / 2 % 2 == 1
    cores := BitVec.ofNat 512 (fieldAt bs 0x20 64)
    pkgs := BitVec.ofNat 512 (fieldAt bs 0x60 64) }

/-- INVAL of a memory copy (Table 9.3). -/
def scopeInval (bs : List Byte) : Bool := fieldAt bs 2 2 / 4 % 2 == 1

/-- Table 9.3: the bytes the device writes for an entry. -/
def scopeBytes (e : Scope) : List Byte :=
  layout 160 [(0, leBytes 1 e.point), (1, leBytes 1 e.gen),
    (2, leBytes 2 ((if e.set then 1 else 0) + (if e.stale then 2 else 0))),
    (0x20, leBytes 64 e.cores.toNat), (0x60, leBytes 64 e.pkgs.toNat)]

/-- R248: reserved fields of a descriptor (GEN, SET, STALE and INVAL are ignored). -/
def scopeReservedOk (bs : List Byte) : Bool :=
  fieldAt bs 0 1 / 8 == 0 && fieldAt bs 1 1 / 16 == 0 && fieldAt bs 2 2 / 8 == 0 && fieldAt bs 4 28 == 0

/-- Numbers of the set bits of a 512-bit map. -/
def bitNums (b : BitVec 512) : List Nat := (List.range 512).filter (fun i => b.getLsbD i)

/-- R250: the nearest point an entry may declare. -/
def nearestPoint (cores pkgs : BitVec 512) : Nat :=
  let c := bitNums cores
  let p := bitNums pkgs
  if 1 < p.length then 3
  else if c.length ≤ 1 then 0
  else if c.all (fun k => k / 128 == c.headD 0 / 128) then 1
  else 2

/-- R121: the checks on a descriptor. -/
def scopeDescOk (bs : List Byte) : Bool :=
  let e := scopeOfBytes bs
  scopeReservedOk bs && decide (e.point ≤ 4) && e.cores != 0 && e.pkgs != 0 &&
  decide (nearestPoint e.cores e.pkgs ≤ e.point)

/-- R254: an entry names a package core number out of service, or a core of a retired die. -/
def namesRetired (s : State) (pkg : Nat) (e : Scope) : Bool :=
  let k := s.pkg pkg
  k.retCores.any (fun c => e.cores.getLsbD (c % 512) && e.pkgs.getLsbD (c / 512)) ||
  k.retDies.any (fun d => e.pkgs.getLsbD (d / 4) &&
    (List.range 128).any (fun i => e.cores.getLsbD (128 * (d % 4) + i)))

/-- The packages of a launch's core set. -/
def Launch.pkgs (l : Launch) : List Nat := (l.cores.map pkgOf).eraseDups

def oneBit (n : Nat) : BitVec 512 := BitVec.ofNat 512 (2 ^ n)
def bitsFrom (lo n : Nat) : BitVec 512 := BitVec.ofNat 512 ((2 ^ n - 1) * 2 ^ lo)

/-- R249, Table 9.4: the fixed entries. -/
def fixedScope (s : State) (ck x n : Nat) : Scope :=
  let c := pcoreOf ck
  let own := oneBit (pkgOf ck)
  let all := match s.launchOf ck x with
    | some l => l.pkgs.foldl (fun b p => b ||| oneBit p) 0
    | none => own
  if n = 0 then { point := 0, set := true, cores := oneBit c, pkgs := own, only := some x }
  else if n = 1 then { point := 0, set := true, cores := oneBit c, pkgs := own }
  else if n = 2 then { point := 1, set := true, cores := bitsFrom (c / 4 * 4) 4, pkgs := own }
  else if n = 3 then { point := 1, set := true, cores := bitsFrom (c / 128 * 128) 128, pkgs := own }
  else if n = 4 then { point := 2, set := true, cores := bitsFrom 0 512, pkgs := own }
  else if n = 5 then { point := 3, set := true, cores := bitsFrom 0 512, pkgs := all }
  else { point := 4, set := true, cores := bitsFrom 0 512, pkgs := all }

/-- R252: the entry an operation captures, from the scope table of `a`. -/
def scopeEntry (s : State) (ck x : Nat) (a : Arch) (n : Nat) : Scope :=
  if n < 8 then fixedScope s ck x n else a.scopes.get n {}

/-- R127: the cause that the use of an index raises. -/
def scopeCause (a : Arch) (n : Nat) : Option Nat :=
  if n < 8 then none
  else
    let e := a.scopes.get n {}
    if !e.set then some cScope else if e.stale then some cStale else none

/-- R249: a context is a member of an entry. -/
def isMember (e : Scope) (ck x : Nat) : Bool :=
  e.cores.getLsbD (pcoreOf ck) && e.pkgs.getLsbD (pkgOf ck) && (match e.only with | some y => x == y | none => true)

/-- R117, R217: the index of the launch's scope: sc4 in one package, sc5 in a pod launch. -/
def launchScope (s : State) (ck x : Nat) : Nat :=
  match s.launchOf ck x with
  | some l => if l.pod then 5 else 4
  | none => 4

/-- Index and generation that an ordering leaves for race records (R261), with the new interval. -/
def State.ordered (s : State) (ck x sc gen : Nat) : State :=
  s.modCtx ck x (fun c => { c with interval := c.interval + 1, lastSc := sc, lastGen := gen })

/-- Is this a store of the context? -/
def Store.ofCtx (st : Store) (ck x : Nat) : Bool := st.core == ck && st.ctx == x

/-- R253: a release of the context covers a store: its own, or one that an acquire of its has observed. -/
def Store.covered (st : Store) (ck x : Nat) : Bool := st.ofCtx ck x || st.seen.contains (4 * ck + x)

/-- R251, R253: a store that a release of the context covers is not yet acknowledged at a point. -/
def unacked (s : State) (ck x point : Nat) : Bool :=
  let mine (st : Store) := st.covered ck x
  let isSpad (st : Store) := match st.place with | .spad _ _ => true | _ => false
  if !(s.ctx ck x).released.isEmpty then true
  else if point = 0 then false
  else if (s.core ck).hand.any mine then true
  else if point = 1 then (s.die (dieOf ck)).slice.any (fun st => mine st && isSpad st)
  else (s.die (dieOf ck)).slice.any mine

/-- R253: an acquire of a context observes the stores of other contexts that its core and its die hold: its later releases
wait for them too. -/
def observe (s : State) (ck x : Nat) : State :=
  let mark (st : Store) : Store := if st.ofCtx ck x then st else { st with seen := addOnce (4 * ck + x) st.seen }
  (s.modCore ck (fun c => { c with hand := c.hand.map mark })).modDie (dieOf ck) (fun d => { d with slice := d.slice.map mark })

/-- A started engine command has not completed. -/
def enginesBusy (c : Ctx) : Bool := c.ec.any (fun e => e.2.cmds.any (·.started))

/-- Every command a context has issued has completed (R117). -/
def enginesDone (c : Ctx) : Bool := c.ec.all (fun e => e.2.cmds.isEmpty)

-- barriers

/-- R225: the unit of a level that a core belongs to. -/
def unitOf (level ck : Nat) : Nat :=
  if level = 1 then ck else if level = 2 then quadOf ck else if level = 3 then dieOf ck
  else if level = 4 then pkgOf ck else 0

def findBarrier (level unit id : Nat) : List Barrier → Barrier
  | [] => { level := level, unit := unit, id := id }
  | b :: t => if b.level = level ∧ b.unit = unit ∧ b.id = id then b else findBarrier level unit id t

def putBarrier (b : Barrier) : List Barrier → List Barrier
  | [] => [b]
  | c :: t => if c.level = b.level ∧ c.unit = b.unit ∧ c.id = b.id then b :: t else c :: putBarrier b t

def Launch.barrier (l : Launch) (level unit id : Nat) : Barrier := findBarrier level unit id l.barriers
def Launch.setBarrier (l : Launch) (b : Barrier) : Launch := { l with barriers := putBarrier b l.barriers }

/-- Contexts of a launch that hold continuations: core and context. -/
def members (s : State) (launch : Nat) : List (Nat × Nat) :=
  s.cores.flatMap (fun c =>
    (c.2.ctxs.filter (fun k => k.2.resident && k.2.launch == launch)).map (fun k => (c.1, k.1)))

/-- R226: the phase from which a context that picks up takes part in the barriers of its core's units. -/
def joinPhases (l : Launch) (ck : Nat) : Tbl Nat :=
  l.barriers.foldl
    (fun t b =>
      if b.unit = unitOf b.level ck then
        t.set (4 * b.level + b.id) (if b.arrived.isEmpty then b.phase else b.phase + 1)
      else t) []

/-- R226: every member of the unit that takes part in the barrier's phase has arrived in it. -/
def phaseFull (s : State) (l : Launch) (b : Barrier) : Bool :=
  !b.arrived.isEmpty &&
  (members s l.id).all (fun m =>
    unitOf b.level m.1 != b.unit || (s.ctx m.1 m.2).status == .resting || decide (b.phase < (s.ctx m.1 m.2).joins.get (4 * b.level + b.id) 0) ||
    b.arrived.contains (s.ctx m.1 m.2).pick)

/-- R226: the phase that a save area records modulo 2^32, as the latest one that an arrival before phase `now + 1` can have. -/
def unwrapPhase (now p : Nat) : Nat :=
  let d := (now + 1 + 2 ^ 32 - p % 2 ^ 32) % 2 ^ 32
  if d ≤ now + 1 then now + 1 - d else p

/-- R143, R226: an arrival of a context, in the current phase or, if it has arrived in that, in the next one. -/
def arrive (s : State) (ck x level id : Nat) : State :=
  match s.launchOf ck x with
  | none => s
  | some l =>
    let u := unitOf level ck
    let b := l.barrier level u id
    let me := (s.ctx ck x).pick
    let join := (s.ctx ck x).joins.get (4 * level + id) 0
    let now := !b.arrived.contains me && decide (join ≤ b.phase)
    let b' : Barrier :=
      if now then { b with arrived := b.arrived ++ [me], lastAt := s.tick, lastOn := (ck, (s.core ck).cycle) }
      else { b with ahead := b.ahead ++ [me] }
    let ph := if now then b.phase else b.phase + 1
    (s.modLaunch l.id (fun l => l.setBarrier b')).modCtx ck x (fun c =>
      { c with arrivals := c.arrivals ++ [{ level := level, id := id, unit := u, phase := ph, core := ck }] })

/-- The latest unwaited arrival of a context on a level and ID. -/
def latestArrival (c : Ctx) (level id : Nat) : Option Arrival :=
  (c.arrivals.filter (fun a => a.level == level && a.id == id)).getLast?

/-- R143: a wait on a level and ID need not block. -/
def barrierPassed (s : State) (ck x level id : Nat) : Bool :=
  level == 0 ||
  match latestArrival (s.ctx ck x) level id, s.launchOf ck x with
  | some a, some l => decide (a.phase < (l.barrier level a.unit id).phase)
  | _, _ => true

end Sys2Proof.Machine
end

