-- ==== Sys2Proof/Machine/Caches.lean ====
section
/-!
DEFINITION. Lines and sets of L1, L2 and the MSCs: re-reference values and victims (R239), what a read leaves in an L2 and at
the home (R243, R244), what a write updates and invalidates (R243), and the sharer directory.
-/

namespace Sys2Proof.Machine

-- a set

/-- The copy of a line in a set. -/
def findLine (line : Nat) : List Line → Option Line
  | [] => none
  | l :: t => if l.addr = line then some l else findLine line t

def dropLine (line : Nat) (l : List Line) : List Line := l.filter (fun x => x.addr != line)

/-- The lowest of some way numbers. -/
def lowest : List Nat → Nat
  | [] => 0
  | w :: t => t.foldl min w

/-- R239: the way that a fill replaces: the lowest-numbered whose value is 3, after raising every value as often as it takes. -/
def rripVictim (l : List Line) : Nat × List Line :=
  let top := l.foldl (fun m x => max m x.rrpv) 0
  let l' := l.map (fun x => { x with rrpv := x.rrpv + (3 - top) })
  (lowest ((l'.filter (fun x => x.rrpv == 3)).map (·.way)), l')

/-- The lowest-numbered way from `w` on, of the next `n + 1`, that holds no line. -/
def freeWay (l : List Line) : Nat → Nat → Nat
  | 0, w => w
  | n + 1, w => if l.any (fun x => x.way == w) then freeWay l n (w + 1) else w

/-- R239: fill a line with insertion value `rd` below 3. A free way is taken before a line is replaced (log entry 16). -/
def rripFill (cap : Nat) (x : Line) (l : List Line) : List Line :=
  match findLine x.addr l with
  | some _ => l.map (fun y => if y.addr = x.addr then { x with way := y.way } else y)
  | none =>
    if l.length < cap then l ++ [{ x with way := freeWay l l.length 0 }]
    else let v := rripVictim l; v.2.map (fun y => if y.way = v.1 then { x with way := v.1 } else y)

/-- R239: a hit sets the value to 0. -/
def rripHit (line : Nat) (l : List Line) : List Line := l.map (fun x => if x.addr = line then { x with rrpv := 0 } else x)

/-- Lines of a set that a fill has replaced. -/
def replaced (old new : List Line) : List Nat :=
  (old.filter (fun x => (findLine x.addr new).isNone)).map (·.addr)

-- L2

/-- R239: the L2 slice of a line, from the physical address in its package. -/
def l2Slice (line : Nat) : Nat :=
  let a := 128 * line % 2 ^ 52
  Nat.xor (Nat.xor (bitsOf a 7 8) (bitsOf a 15 8)) (Nat.xor (bitsOf a 23 8) (bitsOf a 31 8))

/-- The set of a line in an L2: its slice (R239), and within the slice a free value. -/
def l2Set (line : Nat) : Nat := Config.l2Sets * l2Slice line + Config.freeL2Set line % Config.l2Sets

def Die.l2Line (d : Die) (line : Nat) : Option Line := findLine line (d.l2.get (l2Set line) [])

/-- Change the set of a line in a die's L2. -/
def Die.modSet (d : Die) (line : Nat) (f : List Line → List Line) : Die :=
  { d with l2 := d.l2.set (l2Set line) (f (d.l2.get (l2Set line) [])) }

/-- A die's L2 gives up a line, if it holds it. -/
def Die.dropL2 (d : Die) (line : Nat) : Die := if (d.l2Line line).isSome then d.modSet line (dropLine line) else d

/-- R243: the dies of its package whose L2 may hold a line: bits 3 to 0 of its entry in the sharer directory of its home. -/
def State.sharers (s : State) (line : Nat) : List Nat :=
  (s.dies.filter (fun d => d.1 / 4 == 128 * line / 2 ^ 52 && (d.2.l2Line line).isSome)).map (fun d => d.1 % 4)

/-- R243: the L2 copies of lines of a package go, except those of one die. -/
def dropShared (s : State) (lines : List Nat) (keep : Option Nat) : State :=
  { s with dies := s.dies.map (fun d =>
      if some d.1 = keep then d
      else (d.1, (lines.filter (fun l => 128 * l / 2 ^ 52 == d.1 / 4)).foldl Die.dropL2 d.2)) }

/-- R244: an acquire at point 3 or 4 discards a die's copies of lines of other packages. -/
def Die.dropRemote (dk : Nat) (d : Die) : Die :=
  { d with l2 := d.l2.map (fun t => (t.1, t.2.filter (fun l => 128 * l.addr / 2 ^ 52 == dk / 4))) }

/-- R239, R243, R251: a die takes a store that a core hands over: its slices hold the write until the home has performed it, and its
copy of the line, if it has one, is updated and takes value 0. -/
def Die.takeStore (d : Die) (st : Store) : Die :=
  let d1 := { d with slice := d.slice ++ [st] }
  match st.place with
  | .hbm a =>
    if st.race = 0 && (d.l2Line (a / 128)).isSome then
      d1.modSet (a / 128) (fun l => l.map (fun x =>
        if x.addr = a / 128 then
          { x with data := vregOfBytes (overlayCells (128 * (a / 128)) (vregBytes x.data) st.cells), rrpv := 0 }
        else x))
    else d1
  | _ => d1

-- the MSC

/-- R239: the set of an MSC that a line lies in. -/
def mscSet (line : Nat) : Nat := Config.freeMscSet line % Config.mscSets

/-- R239, R243: an access reaches the MSC that is home of a line: a hit sets its value to 0, a miss fills it unless `rd` is 3,
and a line that the fill replaces leaves every L2 first. -/
def mscTouch (s : State) (line rd : Nat) : State :=
  let dk := homeOf (128 * line)
  let k := mscSet line
  let set := (s.die dk).msc.get k []
  if (findLine line set).isSome then s.modDie dk (fun d => { d with msc := d.msc.set k (rripHit line set) })
  else if rd = 3 then s
  else
    let set' := rripFill Config.mscWays { addr := line, data := 0, rrpv := rd } set
    (dropShared s (replaced set set') none).modDie dk (fun d => { d with msc := d.msc.set k set' })

/-- R239: lines of a range at their home. -/
def mscRange (s : State) (fa n rd : Nat) : State :=
  (List.range ((fa % 128 + n + 127) / 128)).foldl (fun s i => mscTouch s (fa / 128 + i) rd) s

-- reads through L2

/-- The 128 bytes of a line as a die answers them. -/
def lineBits (s : State) (dk fa : Nat) : BitVec 1024 := vregOfBytes (s.dieView dk (.hbm (fa / 128 * 128)) 128)

/-- Bytes of a line. -/
def fromLine (l : Line) (fa n : Nat) : List Byte := ((vregBytes l.data).drop (fa % 128)).take n

/-- R239, R243, R244: a die's L2 may hold lines of an HBM target: of its own package, or of another's on a pod-cacheable page;
none of a race-checked page (R260). -/
def l2Holds (dk : Nat) (t : Target) : Bool :=
  match t.place with
  | .hbm a => t.race == 0 && (a / 2 ^ 52 == diePkg dk || t.pc)
  | _ => false

/-- R239, R243, R244: what a die reads at a target within a line: of a remote line that its L2 holds, the copy. -/
def l2Sees (s : State) (dk : Nat) (t : Target) (n : Nat) : List Byte :=
  match t.place, (if l2Holds dk t then (match t.place with | .hbm a => (s.die dk).l2Line (a / 128) | _ => none) else none) with
  | .hbm a, some l => if a / 2 ^ 52 = diePkg dk then s.dieSees dk t n else fromLine l a n
  | _, _ => s.dieSees dk t n

/-- R239, R243, R244: a read of HBM bytes past L1 by a die: a hit in L2 answers with the copy, where its line is of another
package; a line of the die's own package is coherent. A miss reads at the home and fills L2 with the insertion value. -/
def l2Read (s : State) (dk : Nat) (t : Target) (fa n rd : Nat) : State × List Byte :=
  if l2Holds dk t then
    match (s.die dk).l2Line (fa / 128) with
    | some l =>
      (s.modDie dk (fun d => d.modSet (fa / 128) (rripHit (fa / 128))),
       if fa / 2 ^ 52 = diePkg dk then s.dieView dk t.place n else fromLine l fa n)
    | none =>
      let l : Line := { addr := fa / 128, data := lineBits s dk fa, rrpv := rd }
      let s1 := mscTouch s (fa / 128) rd
      (if rd = 3 then s1 else s1.modDie dk (fun d => d.modSet (fa / 128) (rripFill Config.l2Ways l)), s.dieView dk t.place n)
  else (mscTouch s (fa / 128) rd, if t.race = 0 then s.dieView dk t.place n else s.readPlace t.place n)

end Sys2Proof.Machine
end

