-- ==== Sys2Proof/Machine/Ops.lean ====
section
/-!
DEFINITION. The named operations over memory and contexts: writes as they perform at a home, the race detector (R260 to
R263), L1 (R239 to R242), checkpoints (R31 to R35), rollback (R36), the continuation record and the save area (R215,
R339), the end of a launch (R230, R293, R320), and TAKING A TRAP with its policies (R36, R334 to R337) and coming to rest
for a pre-emption (R338).
-/

namespace Sys2Proof.Machine

-- telemetry

/-- R4: the physical core number within its die that holds a package core number. -/
def State.physCore (s : State) (ck : Nat) : Nat := (s.pkg (pkgOf ck)).physOf.get (pcoreOf ck) (pcoreOf ck % 128)

/-- Table 16.4: offset of a counter of the core that holds a package core number. -/
def coreTel (s : State) (ck off : Nat) : Nat :=
  0x140000 + 0x100 * (136 * (pcoreOf ck / 128) + s.physCore ck) + off

def State.countCore (s : State) (ck off : Nat) : State := s.count (pkgOf ck) (coreTel s ck off)

/-- Table 16.4: offset of a counter of a die. -/
def dieTel (dk off : Nat) : Nat := 0x110000 + 0x1000 * (dk % 4) + off

/-- R372, R373: a package writes an event record, and raises an in-band interrupt with CODE[7:0]; the log keeps the last 4,096,
newest first. -/
def State.event (s : State) (p code source detail : Nat) : State :=
  (s.modPkg p (fun k =>
    { k with events := ((BitVec.ofNat 16 code, BitVec.ofNat 16 source, BitVec.ofNat 64 detail,
        BitVec.ofNat 64 (s.devTime p)) :: k.events).take 4096, ibi := BitVec.ofNat 8 code :: k.ibi })).count p 0x100000

-- the arithmetic clock

/-- Contexts of a core that hold a continuation. -/
def residents (c : Core) : List (Nat × Ctx) := c.ctxs.filter (fun k => k.2.resident)

/-- The pulse of the arithmetic clock on which a core's next cycle falls (R362). -/
def Core.pulse (c : Core) : Nat := c.cycle + c.lag

/-- R362: pulses dropped below pulse `n` where `v` of four are: every second one (the odd ones), or all but every fourth. -/
def dropsBelow (v n : Nat) : Nat := if v = 2 then n / 2 else if v = 3 then n - (n + 3) / 4 else 0

/-- R362: pulses dropped from pulse `n` on, up to the next that is not. -/
def dropsAt (v n : Nat) : Nat := if v = 2 then n % 2 else if v = 3 then (4 - n % 4) % 4 else 0

/-- R362: how many of four pulses a core's block drops; blocks 0 to 127 of a package are its quads. -/
def State.throttleOf (s : State) (ck : Nat) : Nat := (s.pkg (pkgOf ck)).throttle.get (pcoreOf ck / 4) 0

/-- R233, R235: the first pulse on which a context may issue. -/
def State.edgeOf (s : State) (ck : Nat) (c : Ctx) : Nat :=
  max c.edge (match c.startAt with | some v => s.pulseOf (pkgOf ck) v | none => 0)

/-- R362: of the next `n` pulses of a core, those before a common edge of one of its contexts. -/
def State.beforeEdge (s : State) (ck n : Nat) : Nat :=
  let k := s.core ck
  (residents k).foldl (fun m c => let e := s.edgeOf ck c.2; if k.pulse ≤ e then min m (e - k.pulse) else m) n

/-- R362, R371: pulses of a core are dropped and counted. -/
def State.dropPulses (s : State) (ck n : Nat) : State :=
  if n = 0 then s else (s.modCore ck (fun k => { k with lag := k.lag + n })).countBy (pkgOf ck) (coreTel s ck 0x38) n

/-- R362: the pulses that a throttled core drops before its next cycle. -/
def State.throttled (s : State) (ck : Nat) : State :=
  let v := s.throttleOf ck
  if v = 0 then s else s.dropPulses ck (s.beforeEdge ck (dropsAt v (s.core ck).pulse))

/-- A core without contexts is at the present: the cycles up to it have passed. -/
def State.catchUp (s : State) (ck : Nat) : State :=
  let k := s.core ck
  let n := (s.tick + 1) / 2
  if !(residents k).isEmpty || decide (n ≤ k.pulse) then s
  else
    let v := s.throttleOf ck
    let d := dropsBelow v n - dropsBelow v k.pulse
    let s1 := s.dropPulses ck d
    (s1.modCore ck (fun c => { c with cycle := n - c.lag })).throttled ck

/-- R10: the cycle of its arithmetic clock in which a core is now. -/
def State.cycleNow (s : State) (ck : Nat) : Nat := ((s.catchUp ck).core ck).cycle

-- ready flags

/-- R288: a word of a scratchpad is a ready flag of a tiled collective in flight on its core. -/
def isFlag (c : Core) (w : Nat) : Bool :=
  c.ctxs.any (fun x => x.2.ec.any (fun e => e.2.cmds.any (fun k =>
    (List.range k.ntiles).any (fun i => spadPhys x.2.win.spad x.2.base (k.flagAt + 4 * i) / 4 == w))))

/-- R288: a context has stored `n` bytes in its own core's scratchpad; non-zero ready flags among the words are noted. -/
def noteFlag (s : State) (ck x off n : Nat) : State :=
  let c := s.core ck
  let hit := ((List.range ((off % 4 + n + 3) / 4)).map (fun i => off / 4 + i)).filter (fun w =>
    isFlag c w && Mem.nat c.spad (4 * w) 4 != 0)
  if hit.isEmpty then s else s.modCtx ck x (fun k => { k with flags := hit ++ k.flags })

/-- R288: a committed store has performed at a word; a non-zero ready flag is noted for its collective. -/
def noteCommitted (s : State) (core w : Nat) : State :=
  let c := s.core core
  if isFlag c w && Mem.nat c.spad (4 * w) 4 != 0 then s.setCore core { c with flagsOut := addOnce w c.flagsOut } else s

/-- R288: the words of a scratchpad that the cells of a committed store touch. -/
def noteCells (s : State) (p : Place) (l : List Host.Cell) : State :=
  match p with
  | .spad c _ => ((l.map (fun a => a.1 / 4)).eraseDups).foldl (fun s w => noteCommitted s c w) s
  | _ => s

-- writes as performed

/-- R172: bytes of a scratchpad are written: what stood there before a request changed them is no longer of use. -/
def keepOld (l : List (Nat × Nat × Byte)) (o n : Nat) : List (Nat × Nat × Byte) :=
  l.filter (fun p => decide (p.2.1 < o) || decide (o + n ≤ p.2.1))

/-- R360: lines whose 128 bytes a write covers lose their mark; R359: so does a scratchpad word that is written. -/
def clearMarks (s : State) (p : Place) (n : Nat) : State :=
  match p with
  | .spad c o => s.modCore c (fun k =>
      { k with spadUE := k.spadUE.filter (fun w => w < o / 4 || (o + n - 1) / 4 < w), spadOld := keepOld k.spadOld o n })
  | .hbm a => { s with poison := s.poison.filter (fun l => !(decide (a ≤ 128 * l) && decide (128 * l + 128 ≤ a + n))) }
  | .host _ _ _ => s

/-- A write performed at its home or at the owning core. -/
def State.perform (s : State) (p : Place) (bs : List Byte) : State := (clearMarks s p bs.length).writePlace p bs

/-- Bytes of cells written one by one. -/
def State.putCells (s : State) (p : Place) : List Host.Cell → State
  | [] => s
  | (a, v) :: t =>
    let q : Place := match p with
      | .spad c _ => .spad c a
      | .hbm _ => .hbm a
      | .host k i _ => .host k i (a - hostKey k i 0)
    (s.writePlace q [v]).putCells p t

/-- R359, R360: marks of the words of a scratchpad that cells touch, and of the lines that they cover, go. -/
def clearCells (s : State) (p : Place) (l : List Host.Cell) : State :=
  match p with
  | .spad c _ => s.modCore c (fun k =>
      { k with spadUE := k.spadUE.filter (fun w => !l.any (fun a => a.1 / 4 == w))
               spadOld := k.spadOld.filter (fun p => !l.any (fun a => a.1 == p.2.1)) })
  | .hbm _ => { s with poison := s.poison.filter (fun n => !(List.range 128).all (fun i => l.any (fun a => a.1 == 128 * n + i))) }
  | .host _ _ _ => s

/-- A write of cells performed at its home or at the owning core. -/
def State.performCells (s : State) (p : Place) (l : List Host.Cell) : State := clearCells (s.putCells p l) p l

/-- R260: the fabric address of the shadow word of a byte, from the device block's SHADOW of its die (Table 15.1). -/
def shadowAddr (s : State) (fa : Nat) : Nat :=
  let pkg := fa / 2 ^ 52
  let pa := fa % 2 ^ 52
  let d := pa / 2 ^ 37
  fabric pkg (s.hbmWord pkg (0x1000000 + 32 * d) + 8 * ((pa % 2 ^ 37) / 64))

/-- R263, Table 9.8: a race-log record of the home's die, if it has a log. -/
def raceLog (s : State) (fa : Nat) (store : Bool) (ck x shadow : Nat) : State :=
  let pkg := fa / 2 ^ 52
  let pa := fa % 2 ^ 52
  let d := pa / 2 ^ 37
  let b := 0x1000000 + 32 * d
  let base := s.hbmWord pkg (b + 8)
  if base = 0 then s
  else
    let n := s.hbmWord pkg (b + 0x18)
    let at_ := base + 32 * (n % 2 ^ (s.hbmWord pkg (b + 0x10) % 32))
    let rec_ := leBytes 8 (pkg * 2 ^ 52 + pa) ++
      leBytes 8 ((if store then 2 ^ 21 else 0) + pkgOf ck * 2 ^ 12 + pcoreOf ck * 8 + x * 2) ++
      leBytes 8 shadow ++ leBytes 8 (s.devTime pkg)
    let s1 := (s.perform (.hbm (fabric pkg at_)) rec_).perform (.hbm (fabric pkg (b + 0x18))) (leBytes 8 (n + 1))
    s1.count pkg (dieTel d 0x40)

/-- R262: the shadow word that a store leaves in its sectors: its writer with the interval, index and generation of the
store. -/
def shadowOf (st : Store) : Nat :=
  st.interval.toNat * 2 ^ 30 + pkgOf st.core * 2 ^ 21 + pcoreOf st.core * 2 ^ 12 + st.ctx % 4 * 2 ^ 10 + st.lastSc % 32 * 32 +
    st.lastGen % 16 * 2 + 1

/-- R262: a checked access of a context at a byte of a sector: whether it races, and the state with the log record of
log mode and, for a store, the sector's new shadow word. -/
def raceCheck (s : State) (ck x fa mode : Nat) (store : Option Nat) : State × Bool :=
  let sa := shadowAddr s fa
  let w := Mem.nat s.mem sa 8
  let wc := 512 * bitsOf w 21 9 + bitsOf w 12 9
  let wx := bitsOf w 10 2
  let raced := w % 2 == 1 && !(wc == ck && wx == x) && (s.ctx wc wx).interval.toNat == bitsOf w 30 34
  let s1 := if raced && mode = 2 then raceLog s fa store.isSome ck x w else s
  ((match store with
    | some v => s1.perform (.hbm sa) (leBytes 8 v)
    | none => s1), raced)

/-- R262: a checked read of `n` bytes: each sector it touches, at the first byte it reads there; whether one races. -/
def raceRead (s : State) (ck x fa n mode : Nat) : State × Bool :=
  (List.range ((fa % 64 + n + 63) / 64)).foldl (fun r i =>
    let q := raceCheck r.1 ck x (if i = 0 then fa else fa / 64 * 64 + 64 * i) mode none
    (q.1, r.2 || q.2)) (s, false)

/-- R262: an engine write of bytes of a checked page clears VALID in the shadow words of their sectors. -/
def clearShadow (s : State) (fa : Nat) : List Nat → State
  | [] => s
  | i :: t =>
    let sa := shadowAddr s (fa / 64 * 64 + 64 * i)
    clearShadow (s.perform (.hbm sa) (leBytes 8 (Mem.nat s.mem sa 8 / 2 * 2))) fa t

/-- A write of an engine to a translated target: L2 copies of its lines are invalidated (R243), and its insertion value at the MSC
is 2 (R239). -/
def State.engPerform (s : State) (t : Target) (bs : List Byte) : State :=
  match t.place with
  | .hbm a =>
    let lines := (List.range ((a % 128 + bs.length + 127) / 128)).map (fun i => a / 128 + i)
    let s1 := (mscRange (dropShared s lines none) a bs.length 2).perform t.place bs
    if t.race = 0 then s1 else clearShadow s1 a (List.range ((a % 64 + bs.length + 63) / 64))
  | _ => s.perform t.place bs

/-- Address in HBM of a queue's table entry (R314). -/
def qentry (s : State) (p q : Nat) : Nat := fabric p (((s.pkg p).regs.get 0x40 0).toNat + 32 * q)

/-- R316, R375: set QERR and clear ENABLE in a queue's entry; its slot is freed. -/
def queueError (s : State) (p q err : Nat) : State :=
  let e := qentry s p q
  let w1 := Mem.nat s.mem (e + 8) 8
  let w3 := Mem.nat s.mem (e + 0x18) 8
  let s1 := (s.perform (.hbm (e + 8)) (leBytes 8 (w1 % 2 ^ 63))).perform (.hbm (e + 0x18))
    (leBytes 8 (w3 - bitsOf w3 24 8 * 2 ^ 24 + err * 2 ^ 24))
  s1.modPkg p (fun k =>
    { k with slots := k.slots.filter (fun x => x.2 != q), pending := k.pending.filter (fun x => x.q != q) })

/-- A process's write of a virtual range by the device: the pieces that translate are written; the last fault's code, or 0; and,
from the first page that migrates on, what is left to write (R350). -/
def procWritePieces (s : State) (pkg pasid : Nat) : List (Nat × Nat) → List Byte → State × Nat × Option (Nat × List Byte)
  | [], _ => (s, 0, none)
  | (a, n) :: t, bs =>
    match reachProc s pkg pasid a .write with
    | .ok g => procWritePieces (s.engPerform g (bs.take n)) pkg pasid t (bs.drop n)
    | .trap c => let r := procWritePieces s pkg pasid t (bs.drop n); (r.1, max c r.2.1, r.2.2)
    | .miss => (s, 0, some (a, bs))

/-- R317, R375: what follows a write made for a queue's command: a fault stops the queue with QERR 4, a SIG write sends the queue's
MSI-X message (Table 14.4). -/
def devWritten (s : State) (pkg : Nat) (queue : Option Nat) (sig : Bool) (fault : Nat) : State :=
  match queue with
  | none => s
  | some q =>
    if fault != 0 then queueError s pkg q 4
    else
      let w3 := Mem.nat s.mem (qentry s pkg q + 0x18) 8
      if sig && bitsOf w3 16 1 == 1 then s.modPkg pkg (fun k => { k with msix := bitsOf w3 0 16 :: k.msix }) else s

/-- R350: a write of the process waits. -/
def devWaits (s : State) (pkg pasid : Nat) : Bool := s.devHeld.any (fun w => w.pkg == pkg && w.pasid == pasid)

/-- R350: a write that waits is attempted: it is performed as far as the first migrating page, and what is left of it. -/
def devAttempt (s : State) (w : DevWrite) : State × Option DevWrite :=
  let r := procWritePieces s w.pkg w.pasid (blockPieces w.va w.bytes.length) w.bytes
  match r.2.2 with
  | none => (devWritten r.1 w.pkg w.queue w.sig r.2.1, none)
  | some (va, bs) =>
    let w' := { w with va := va, bytes := bs, due := s.tick + Config.resendTicks }
    if r.2.1 = 0 then (r.1, some w') else (devWritten r.1 w.pkg w.queue w.sig r.2.1, some { w' with queue := none, sig := false })

/-- The device writes a range of a process, for a queue's command or for none, and drops what faults; a page that migrates holds it
and the later writes of the process (R350). -/
def procWrite (s : State) (pkg pasid a : Nat) (bs : List Byte) (queue : Option Nat) (sig : Bool := false) : State :=
  let w : DevWrite := { pkg := pkg, pasid := pasid, va := a, bytes := bs, due := s.tick + Config.resendTicks, queue := queue, sig := sig }
  if devWaits s pkg pasid then { s with devHeld := s.devHeld ++ [w] }
  else
    match devAttempt s w with
    | (t, some w') => { t with devHeld := t.devHeld ++ [w'] }
    | (t, none) => t

/-- A write of the device for no queue. -/
def State.devWrite (s : State) (pkg pasid a : Nat) (bs : List Byte) : State := procWrite s pkg pasid a bs none

/-- R350: the waiting write at a position, if no earlier one of its process waits and its time has come, is attempted again. -/
def devRetry (s : State) (i : Nat) : State :=
  match s.devHeld[i]? with
  | none => s
  | some w =>
    if s.tick < w.due || (s.devHeld.take i).any (fun y => y.pkg == w.pkg && y.pasid == w.pasid) then s
    else
      let r := devAttempt s w
      { r.1 with devHeld := match r.2 with | some w' => s.devHeld.set i w' | none => s.devHeld.eraseIdx i }

-- L1

/-- R242: the package core that holds a line of a core's L1: itself, or in a fused quad the core that bits [8:7] of the
address choose. -/
def l1Holder (s : State) (ck line : Nat) : Nat := if (s.core ck).fused then ck / 4 * 4 + line % 4 else ck

def State.l1Line (s : State) (ck line : Nat) : Option Line := findLine line (s.core (l1Holder s ck line)).l1

/-- R240: a store handed over by a core removes its line from the core's L1. -/
def State.l1Drop (s : State) (ck line : Nat) : State :=
  s.modCore (l1Holder s ck line) (fun c => { c with l1 := dropLine line c.l1 })

/-- R242: the cores whose L1s are one with a core's. -/
def State.l1Cores (s : State) (ck : Nat) : List Nat :=
  if (s.core ck).fused then [ck / 4 * 4, ck / 4 * 4 + 1, ck / 4 * 4 + 2, ck / 4 * 4 + 3] else [ck]

/-- R240, R151: every line of a core's L1, or of its quad's fused L1, is invalidated; loads already issued fill no
line. -/
def State.l1Flush (s : State) (ck : Nat) : State :=
  (s.l1Cores ck).foldl
    (fun s k => s.modCore k (fun c =>
      { c with l1 := [],
               ctxs := c.ctxs.map (fun p => (p.1, { p.2 with loads := p.2.loads.map (fun l => { l with nofill := true }) })) })) s

-- stores

/-- R31, R130: a store enters the withholding buffer: it joins the youngest entry of the core's buffer when that is the
same context's, in the same 128-byte block, and neither holds a release; else it takes a new entry. The entry keeps the insertion
value of its first store (DESIGN CHOICE, log entry 123). -/
def withhold (st : Store) (buf : List Store) : List Store :=
  match buf.getLast? with
  | some y =>
    if y.core == st.core && y.ctx == st.ctx && y.place == st.place && !y.rel && !st.rel && y.race == st.race then
      buf.dropLast ++ [{ y with cells := y.cells ++ st.cells }]
    else buf ++ [st]
  | none => buf ++ [st]

/-- The aligned 128-byte block of a place. -/
def Place.block : Place → Place
  | .spad c o => .spad c (o / 128 * 128)
  | .hbm a => .hbm (a / 128 * 128)
  | .host k q a => .host k q (a / 128 * 128)

/-- Bytes as cells keyed by their place's address. -/
def cellsOf (p : Place) (bs : List Byte) : List Host.Cell :=
  (List.range bs.length).map (fun i => (p.key.2 + i, bs.getD i 0))

/-- A store of a context as the withholding buffer holds it, with what race records take from the context (R262). -/
def mkStore (c : Ctx) (ck x : Nat) (t : Target) (bs : List Byte) : Store :=
  { core := ck, ctx := x, place := t.place.block, cells := cellsOf t.place bs, race := t.race, pc := t.pc, page := t.page
    interval := c.interval, lastSc := c.lastSc, lastGen := c.lastGen }

-- entries of streams

/-- R144: the index tuple's sum of strides for entry `n`. -/
def strideSum : List Nat → List Int → Nat → Int
  | c :: cs, t :: ts, n => (if c = 0 then 0 else (n % c : Nat)) * t + strideSum cs ts (if c = 0 then 0 else n / c)
  | _, _, _ => 0

/-- R144: A(n), modulo 2^64. -/
def StreamDesc.addr (d : StreamDesc) (n : Nat) : Nat :=
  (BitVec.ofInt 64 (d.base + strideSum (d.counts.take d.dims) d.strides n)).toNat

/-- Table 5.7: address of the scales of entry `n`. -/
def StreamDesc.scaleAddr (d : StreamDesc) (n : Nat) : Nat := (BitVec.ofInt 64 (d.sbase + n * d.sstride)).toNat

/-- R144: E8 scales of an entry. -/
def StreamDesc.scales (d : StreamDesc) : Nat := if d.scaled then (d.lanes + 7) / 8 else 0

/-- Bytes of a lane in memory: 3 for L6 (R52). -/
def StreamDesc.laneBytes (d : StreamDesc) : Nat := if d.fmt = 5 then 3 else 4

/-- The ranges that entry `n` covers: address and length. -/
def StreamDesc.ranges (d : StreamDesc) (n : Nat) : List (Nat × Nat) :=
  blockPieces (d.addr n) (d.lanes * d.laneBytes) ++ blockPieces (d.scaleAddr n) d.scales

/-- Table 5.7: the lanes of an entry from the bytes of its ranges, and back. -/
def StreamDesc.lanesOf (d : StreamDesc) (bs : List Byte) : VReg :=
  vregOf (fun l =>
    if l < d.lanes then BitVec.ofNat 32 (fieldAt bs (l * d.laneBytes) d.laneBytes)
    else if l < d.lanes + d.scales then BitVec.ofNat 32 (fieldAt bs (d.lanes * d.laneBytes + (l - d.lanes)) 1)
    else 0)

def StreamDesc.bytesOf (d : StreamDesc) (v : VReg) : List Byte :=
  (List.range d.lanes).flatMap (fun l => leBytes d.laneBytes (laneOf v l).toNat) ++
  (List.range d.scales).flatMap (fun j => leBytes 1 (laneOf v (d.lanes + j)).toNat)

/-- R347: translation for the transfer unit: a miss of the micro-TLB walks at once; `miss` means a migrating leaf. -/
def reachUnit (s : State) (ck x va : Nat) (a : Access) : Reach :=
  match reach s ck x va a with
  | .miss => reachEng s ck x va a
  | r => r

/-- The targets of an entry's ranges; the cause of the first fault, 0 for a migrating leaf. -/
def entryTargets (s : State) (ck x : Nat) (a : Access) : List (Nat × Nat) → Except Nat (List (Target × Nat))
  | [] => .ok []
  | (p, n) :: t =>
    match reachUnit s ck x p a with
    | .ok g => (match entryTargets s ck x a t with | .ok l => .ok ((g, n) :: l) | .error c => .error c)
    | .trap c => .error c
    | .miss => .error 0

/-- R144: an entry's address is a multiple of 4 unless it holds L6. -/
def StreamDesc.aligned (d : StreamDesc) (n : Nat) : Bool := d.fmt == 5 || d.addr n % 4 == 0

/-- R32, R240: a core hands a store over: it goes behind those before it, and its line leaves the core's L1. -/
def State.handStore (s : State) (ck : Nat) (st : Store) : State :=
  let s1 := s.modCore ck (fun k => { k with hand := k.hand ++ [st] })
  match st.place with
  | .hbm a => s1.l1Drop ck (a / 128)
  | _ => s1

/-- R245: bytes of a drained entry, handed over behind the core's stores; own scratchpad is written at once. -/
def handEntry (s : State) (ck x rd : Nat) : List (Target × Nat) → List Byte → State
  | [], _ => s
  | (t, n) :: r, bs =>
    let st : Store := { mkStore (s.ctx ck x) ck x t (bs.take n) with rd := rd }
    let s1 := match t.place with
      | .spad c _ => if c = ck then s.perform t.place (bs.take n) else s.handStore ck st
      | _ => s.handStore ck st
    handEntry s1 ck x rd r (bs.drop n)

/-- R347: the transfer unit has used the addresses of an entry. -/
def tlbRanges (s : State) (ck x : Nat) (l : List (Nat × Nat)) : State := l.foldl (fun s p => tlbUse s ck x p.1 true) s

/-- R26, R147, R245: the oldest released output entry drains to its stream's addresses; a fault drops it and marks its
queue. A store that waited behind it is handed over in its turn. -/
def drainEntry (s : State) (ck x : Nat) : State :=
  match (s.ctx ck x).released with
  | [] => s
  | .store st :: rest => (s.modCtx ck x (fun c => { c with released := rest })).handStore ck st
  | .entry h :: rest =>
    let fault (cause : Nat) : State := s.modCtx ck x (fun c =>
      { c with released := rest, qFault := c.qFault.set (8 * h.group + h.queue) cause })
    let done : State := s.modCtx ck x (fun c => { c with released := rest })
    if !h.desc.aligned h.num then fault cAlignment
    else
      match entryTargets s ck x .write (h.desc.ranges h.num) with
      | .error 0 => s
      | .error c => fault c
      | .ok l => handEntry (tlbRanges done ck x (h.desc.ranges h.num)) ck x h.desc.rd l (h.desc.bytesOf (h.data.getD 0))

/-- Released entries drain until one waits for a migrating page. -/
def drainEntries : Nat → State → Nat → Nat → State
  | 0, s, _, _ => s
  | n + 1, s, ck, x => drainEntries n (drainEntry s ck x) ck x

/-- R32 step 3, R245 for the withheld stores of a context: handed over in buffer order, behind the output entries that were
released before. -/
def handOver (s0 : State) (ck x : Nat) : State :=
  let mine := (s0.core ck).wbuf.filter (fun st => st.ctx == x)
  let s := (s0.modCore ck (fun c => { c with wbuf := c.wbuf.filter (fun st => st.ctx != x) })).modCtx ck x (fun c =>
    { c with released := c.released ++ mine.map .store })
  drainEntries (s.ctx ck x).released.length s ck x

-- checkpoints

/-- R32: a checkpoint may be taken: every exposed result has landed and every beat count has run out. -/
def drained (s : State) (ck x : Nat) : Bool :=
  let c := s.core ck
  (c.ctx x).inflight.isEmpty &&
  c.mma.all (fun g => g.2.all (fun m => m.ctx != x)) &&
  c.colOps.all (fun o => o.ctx != x) &&
  !(c.colCtx == x && decide (c.cycle < c.colBusy))

/-- R245: held entries queue by queue, each queue in entry order. -/
def heldOrder (l : List Held) : List Held := (List.range 4).flatMap (fun q => l.filter (fun h => h.queue == q))

/-- R32 steps 2 to 4: the snapshot closes, withheld stores are handed over, held output entries released, slots and
shadows returned, and a new snapshot opens. R288: ready flags that the region has set may fire their tiles. -/
def checkpoint (s : State) (ck x : Nat) : State :=
  ((handOver s ck x).modCore ck (fun k =>
    { k with flagsOut := ((k.ctx x).flags.filter (isFlag k)).foldl (fun l w => addOnce w l) k.flagsOut })).modCtx ck x (fun c =>
    let a := { c.arch with held := [], handles := c.arch.handles.map (fun h => (h.1, { h.2 with returned := h.2.consumed })) }
    { c with
      arch := a
      snap := a
      released := c.released ++ (heldOrder c.arch.held).map .entry
      latchBuf := c.latchBuf.map (fun p => (p.1, p.2.filter (fun e => (a.latches.get p.1 {}).pos ≤ e.num)))
      rbqPops := 0
      ldqPops := 0
      latchPops := []
      shadowV := []
      shadowT := []
      flags := []
      ckOwed := 0
      ckSince := true })

/-- R35: a forced checkpoint counts in FORCED_CK. -/
def forcedCheckpoint (s : State) (ck x : Nat) : State := (checkpoint s ck x).countCore ck 0x28

/-- R129, R133, R134: the unconsumed entries of a context's bound input latches are discarded and fetched again. -/
def refetch (s : State) (ck x : Nat) : State :=
  s.modCtx ck x (fun c =>
    { c with latchBuf := c.latchBuf.map (fun p => (p.1, p.2.filter (fun e => e.num < (c.arch.latches.get p.1 {}).pos))) })

/-- R129, R244, R253, R261: what an acquire under an entry does. -/
def acquire (s : State) (ck x sc : Nat) (e : Scope) : State :=
  let s1 := observe (refetch (s.ordered ck x sc e.gen) ck x) ck x
  if 3 ≤ e.point then s1.modDie (dieOf ck) (Die.dropRemote (dieOf ck)) else s1

/-- Loads whose number a snapshot still waits for. -/
def waitsFor (a : Arch) (l : Load) : Bool :=
  a.sWait.any (fun p => p.2 == l.id) || a.ldq.any (fun e => e.id == l.id && e.val.isNone)

/-- What the matrix units and the column select unit of a core do for a context is dropped (R36, R209). -/
def clearUnits (x : Nat) (k : Core) : Core :=
  { k with
    mma := k.mma.map (fun g => (g.1, g.2.filter (fun m => m.ctx != x)))
    mxuBusy := k.mxuBusy.filter (fun g => (k.mma.get g.1 []).all (fun m => m.ctx != x))
    busy := k.busy.filter (fun b => b.1 / 64 != x)
    colOps := k.colOps.filter (fun o => o.ctx != x)
    colBusy := if k.colCtx = x then 0 else k.colBusy
    colFrom := k.colFrom.filter (fun b => b.1 / 8 != x) }

/-- R234, R235: the report of a core without context `x`: void where no member of its launch is left that waits in the sluice. -/
def reportWithout (k : Core) (x : Nat) : Option (Nat × Bool) :=
  k.sampled.filter (fun r => k.ctxs.any (fun y => y.1 != x && y.2.inSluice && y.2.launch == r.1))

/-- R36 steps 1 to 4: the context returns to its last checkpoint. -/
def rollback (s : State) (ck x : Nat) : State :=
  s.modCore ck (fun k =>
    let c := k.ctx x
    let c' : Ctx := { c with
      arch := c.snap
      inflight := []
      loads := c.loads.filter (waitsFor c.snap)
      latchBuf := c.latchBuf.filter (fun p => (c.snap.latches.get p.1 {}).desc == (c.arch.latches.get p.1 {}).desc)
      rbqPops := 0
      ldqPops := 0
      latchPops := []
      shadowV := []
      shadowT := []
      flags := []
      served := none
      servedUE := false
      redAt := none
      relWait := none
      granted := false
      resend := none
      walk := none
      walkFail := none
      migHold := none
      inSluice := false
      ckOwed := 0
      ckMade := false
      drain := false }
    { (clearUnits x k).setCtx x c' with
      wbuf := k.wbuf.filter (fun st => st.ctx != x), spadOld := k.spadOld.filter (fun p => p.1 != x), sampled := reportWithout k x })

/-- R136, R142: requests and ticket records of a context are withdrawn from the units and dispensers. -/
def withdraw (s : State) (ck x : Nat) : State :=
  { s with
    cores := s.cores.map (fun p => (p.1, { p.2 with unitQ := p.2.unitQ.filter (fun r => !(r.core == ck && r.ctx == x)) }))
    waiters := s.waiters.filter (fun w => !(w.core == ck && w.ctx == x)) }

-- the continuation record

/-- The record of a context: word 0 of Table 8.1 with its KIND, TRAP, SAVE and CAUSE. -/
def recordWord (image pc kind cause : Nat) (trap save : Bool) : Nat :=
  cause % 256 * 2 ^ 56 + kind % 4 * 2 ^ 50 + (if trap then 2 ^ 49 else 0) + (if save then 2 ^ 48 else 0) +
  image % 65536 * 2 ^ 32 + pc % 2 ^ 32

/-- Slot addresses of a launch (R216). -/
def Launch.recAt (l : Launch) (j : Nat) : Nat := l.recBase + 64 * j
def Launch.saveAt (l : Launch) (j : Nat) : Nat := l.saveBase + l.saveStride * j
def Launch.scopesAt (l : Launch) (j : Nat) : Nat := l.scopeBase + l.scopeStride * j

/-- The image slot a launch's records name. -/
def Launch.imageSlot (l : Launch) : Nat := l.id % 65536

/-- R117, R218: the whole record of a context's continuation, its fields from the special registers. -/
def recordBytes (c : Ctx) (word0 : Nat) : List Byte :=
  leBytes 8 word0 ++ leBytes 8 c.item.toNat ++ leBytes 8 c.frame.toNat ++ leBytes 8 c.scopeTab ++
  leBytes 8 (c.args.get 0 0).toNat ++ leBytes 8 (c.args.get 1 0).toNat ++ leBytes 8 (c.args.get 2 0).toNat ++
  leBytes 8 (c.saveArea / 128 * 128 + c.prio % 128)

-- the save area

/-- R340: offsets of the variable part, and its size. -/
def saveTiles (w : Windows) : Nat := 0x6000 + 1024 * w.vregs
def saveMxu (w : Windows) : Nat := saveTiles w + 8192 * w.tiles
def saveSpad (w : Windows) : Nat := saveMxu w + (if w.mxu then 294912 else 0)
def saveTags (w : Windows) : Nat := saveSpad w + w.spad
def saveSize (w : Windows) : Nat := (saveTags w + w.spad / 32 + 127) / 128 * 128

/-- Table 15.6: a loop level. -/
def loopBytes (l : Loop) : List Byte :=
  let entry (k : Nat) := l.strides.find k
  let regs := ((List.range 4).map (fun k => match entry k with | some e => e.1 % 32 * 2 ^ (8 * k + 8) | none => 0)).sum
  let sv := ((List.range 4).map (fun k => if (entry k).isSome then 2 ^ (4 + k) else 0)).sum
  layout 64 ([(0, leBytes 8 (l.iter * 2 ^ 32 + l.remain)), (8, leBytes 8 (l.last * 2 ^ 32 + l.first)),
    (0x10, leBytes 8 (regs + sv + (if l.run then 1 else 0)))] ++
    (List.range 4).map (fun k => (0x18 + 8 * k, leBytes 8 (match entry k with | some e => e.2.toNat | none => 0))))

/-- A command still queued at a save (R338 step 4): it has not started, or it is an unfired trigger. -/
def EngCmd.queued (c : EngCmd) : Bool := !c.started || c.trig.isSome

/-- Table 15.7: an engine context. -/
def engBytes (e : EngCtx) : List Byte :=
  let q := e.cmds.filter (·.queued)
  layout 1088 ([(0, leBytes 8 e.issued), (8, leBytes 8 e.tl), (0x10, leBytes 8 q.length)] ++
    (q.zipIdx.map (fun p => (0x40 + 32 * p.2,
      leBytes 8 p.1.num ++
      leBytes 8 ((if p.1.trig.isSome then 2 ^ 24 else 0) + p.1.flags % 256 * 2 ^ 16 + p.1.sc % 32 * 2 ^ 8 + p.1.op % 64) ++
      leBytes 8 p.1.desc ++ leBytes 8 p.1.opnd))))

/-- Table 5.8: the bytes of a handle descriptor. -/
def handleBytes (d : HandleDesc) : List Byte :=
  layout 32 [(0, leBytes 1 d.kind), (1, leBytes 1 d.fmt), (2, leBytes 1 (if d.scaled then 1 else 0)),
    (4, leBytes 4 d.base), (8, leBytes 4 d.slotBytes), (0xC, leBytes 4 d.slots), (0x10, leBytes 4 d.sbase),
    (0x14, leBytes 2 d.sbytes)]

/-- Entries of a stream (R144). -/
def StreamDesc.entries (d : StreamDesc) : Nat := (d.counts.take d.dims).foldl (· * ·) 1

/-- Table 15.8: a binding of a latch or queue, with its recorded fault. -/
def bindingBytes (b : Option Binding) (fault : Nat) : List Byte :=
  match b with
  | none => zeros 32
  | some b =>
    layout 32 [(0, leBytes 8 b.src),
      (8, leBytes 8 (1 + (if b.desc.entries ≤ b.pos then 2 else 0) + (if b.template then 4 else 0) +
        (if fault = 0 then 0 else 8) + fault % 256 * 256)),
      (0x10, leBytes 8 b.pos)]

/-- Slots of a handle that are filled: its own and the engines' fills less what it has consumed (R27). -/
def filledSlots (a : Arch) (eng : Tbl Nat) (g k : Nat) : Nat :=
  let h := a.handles.get (8 * g + k) {}
  h.produced + eng.get (8 * g + k) 0 - h.consumed

/-- The recorded cause of the head of a latch, if that entry is faulted (R147). -/
def headFault (c : Ctx) (key : Nat) : Nat :=
  match (c.latchBuf.get key []).find? (fun e => e.num == (c.snap.latches.get key {}).pos) with
  | some e => e.fault
  | none => 0

/-- Table 15.8: the state of a lane group. -/
def groupBytes (c : Ctx) (g : Nat) : List Byte :=
  let a := c.snap
  layout 1024 (
    (List.range 8).map (fun k => (4 * k, leBytes 4 (if k = 0 then 2 ^ 32 - 1 else (a.masks.get (8 * g + k) (BitVec.allOnes 32)).toNat))) ++
    (List.range 8).map (fun k => (0x20 + 4 * k, leBytes 4 (a.gregs.get (8 * g + k) 0).toNat)) ++
    (List.range 8).map (fun k => (0x40 + 48 * k,
      match a.handles.find (8 * g + k) with
      | none => zeros 48
      | some h =>
        let p := h.produced + c.engFill.get (8 * g + k) 0
        handleBytes h.desc ++ leBytes 2 (h.consumed % h.desc.slots) ++ leBytes 2 (p % h.desc.slots) ++
        leBytes 2 (p - h.consumed) ++ zeros 10)) ++
    (List.range 8).map (fun k => (0x1C0 + 32 * k, bindingBytes (a.latches.find (8 * g + k)) (headFault c (8 * g + k)))) ++
    (List.range 4).map (fun k => (0x2C0 + 32 * k, bindingBytes (a.queues.find (8 * g + k)) (c.qFault.get (8 * g + k) 0))))

/-- A cell of the column set where nothing is listed: canonical NaN with its row as tag (R209). -/
def colCell (a : Arch) (col r : Nat) : BitVec 48 :=
  a.cols.get (64 * col + r) (BitVec.ofNat 48 (r * 2 ^ 32 + 0x7FC00000))

/-- Table 15.5: the fixed part of a save area, of the state at the checkpoint. -/
def saveFixed (c : Ctx) (tcause : Word) : List (Nat × List Byte) :=
  let a := c.snap
  let sval (i : Nat) : Nat := if i = 0 ∨ i = 31 then 0 else (a.s.get i 0).toNat
  [(0, leBytes 8 tcause.toNat),
   (8, leBytes 8 ((if a.rngOn then 2 ^ 48 else 0) + a.rbq.length * 2 ^ 45 + a.ldq.length * 2 ^ 40 +
      c.arrivals.length * 2 ^ 32 + c.sluiceCount % 2 ^ 32)),
   (0x10, leBytes 8 ((a.rfill + 2 ^ 64 - a.rbq.length) % 2 ^ 64)), (0x18, leBytes 8 a.rngKey.toNat), (0x20, leBytes 8 c.fstat.toNat),
   (0x28, leBytes 8 c.terr.toNat),
   (0x30, leBytes 8 ((if c.win.mxu then 2 ^ 16 else 0) + c.win.tiles * 256 + c.win.vregs)),
   (0x38, leBytes 8 c.win.spad),
   (0x180, leBytes 8 (a.p.toNat / 2 * 2 + 1))] ++
  (List.range 32).map (fun i => (0x80 + 8 * i, leBytes 8 (sval i))) ++
  (List.range 6).map (fun n => (0x200 + 64 * n, loopBytes (a.loops.get n {}))) ++
  a.ldq.zipIdx.map (fun e => (0x380 + 8 * e.2, leBytes 8 (e.1.val.getD 0).toNat)) ++
  c.arrivals.zipIdx.map (fun r => (0x400 + 16 * r.2,
    leBytes 8 (r.1.level + r.1.id * 8 + r.1.phase % 2 ^ 32 * 2 ^ 32) ++
    leBytes 8 (pcoreOf r.1.core + pkgOf r.1.core * 512))) ++
  (List.range 8).map (fun n => (0x600 + 1088 * n, engBytes (c.eng n))) ++
  (if a.cols.isEmpty then
    (List.range 512).map (fun i => (0x2800 + 8 * i, leBytes 8 (i % 64 * 2 ^ 32 + 0x7FC00000)))
   else (List.range 512).map (fun i => (0x2800 + 8 * i, leBytes 8 (colCell a (i / 64) (i % 64)).toNat))) ++
  (List.range 8).map (fun g => (0x3800 + 1024 * g, groupBytes c g))

/-- Bytes of an allocation in allocation-offset order, in blocks of 128. -/
def allocBlocks (k : Core) (w : Windows) (base : Nat) : List (Nat × List Byte) :=
  (List.range (w.spad / 128)).map (fun i => (128 * i, Mem.bytes k.spad (spadPhys w.spad base (128 * i)) 128))

/-- Tags of an allocation, a byte for 8 words. -/
def tagBytes (k : Core) (w : Windows) (base : Nat) : List Byte :=
  (List.range (w.spad / 32)).map (fun i =>
    BitVec.ofNat 8 (((List.range 8).map (fun b =>
      if k.full.contains (spadPhys w.spad base (4 * (8 * i + b)) / 4) then 2 ^ b else 0)).sum))

/-- R340: the variable part. -/
def saveVariable (k : Core) (c : Ctx) : List (Nat × List Byte) :=
  let a := c.snap
  let w := c.win
  ((List.range 8).flatMap (fun g =>
    (List.range w.vregs).map (fun i => (0x6000 + 128 * (w.vregs * g + i), vregBytes (a.v.get (64 * g + i) 0))))) ++
  ((List.range 8).flatMap (fun g =>
    (List.range w.tiles).map (fun t => (saveTiles w + 1024 * (w.tiles * g + t), tileBytes (a.tiles.get (8 * g + t) 0))))) ++
  (if w.mxu then
    (List.range 8).flatMap (fun g =>
      let f := saveMxu w + 36864 * g
      [(f, Mem.bytes (k.fifos.get (2 * g) []) 0 16384), (f + 16384, Mem.bytes (k.fifos.get (2 * g + 1) []) 0 16384),
       (f + 32768, (List.range 128).flatMap (fun r => leBytes 32 (k.side.get (128 * g + r) 0).toNat))])
   else []) ++
  ((allocBlocks k w c.base).map (fun b => (saveSpad w + b.1, b.2))) ++
  [(saveTags w, tagBytes k w c.base)]

/-- The device writes the parts of a block that lies at an address of a process. -/
def writeParts (s : State) (pkg pasid base : Nat) : List (Nat × List Byte) → State
  | [] => s
  | (o, bs) :: t => writeParts (s.devWrite pkg pasid (base + o) bs) pkg pasid base t

/-- Clear a range of a process, block by block. -/
def clearRange (s : State) (pkg pasid : Nat) : List (Nat × Nat) → State
  | [] => s
  | (a, n) :: t =>
    match reachProc s pkg pasid a .write with
    | .ok g =>
      let lo := g.place.key.2
      clearRange (if devWaits s pkg pasid then s.devWrite pkg pasid a (zeros n)
        else clearMarks { s with mem := s.mem.filter (fun c => c.1 < lo || lo + n ≤ c.1) } g.place n) pkg pasid t
    | .miss => clearRange (s.devWrite pkg pasid a (zeros n)) pkg pasid t
    | .trap _ => clearRange s pkg pasid t

/-- R339: the save area of a context, at its record's SAVE_AREA: its reserved bytes zero, then its parts. -/
def writeSaveArea (s : State) (ck x : Nat) (tcause : Word) : State :=
  let c := s.ctx ck x
  let at_ := c.saveArea / 128 * 128
  let p := pkgOf ck
  let s0 := clearRange s p c.pasid (blockPieces at_ (saveSize c.win))
  writeParts s0 p c.pasid at_ (saveFixed c tcause ++ saveVariable (s.core ck) c)

-- leaving a context

/-- What a context keeps when it becomes idle: its interval number, one further (R261). -/
def idleCtx (c : Ctx) : Ctx := { interval := c.interval + 1 }

/-- R333: a context of a pre-emption request is reported. -/
def reportSaved (s : State) (ck x : Nat) : State :=
  { s with pkgs := s.pkgs.map (fun p => (p.1,
      match p.2.svc with
      | some v => { p.2 with svc := some { v with left := v.left.filter (· != (ck, x)) } }
      | none => p.2)) }

/-- R226: an arrival in a unit's current phase completes nothing by itself; a context that leaves no longer counts. Its
column set, tags and reservations go; its words of the scratchpad stay as they are. -/
def leave (s : State) (ck x : Nat) : State :=
  ((withdraw (reportSaved s ck x) ck x).modCore ck (fun k =>
    let k' := (clearUnits x k).setCtx x (idleCtx (k.ctx x))
    { k' with flagsOut := k'.flagsOut.filter (isFlag k') })).modDie (dieOf ck) (fun d =>
    { d with tagQ := d.tagQ.filter (fun t => !(t.2.1 == ck && t.2.2.1 == x)) })

/-- R218: put a record on the ready list of a die. -/
def pushReady (s : State) (launch dk slot : Nat) : State :=
  s.modLaunch launch (fun l =>
    { l with readyQ := l.readyQ.set dk (l.readyQ.get dk [] ++ [(slot, s.free)]) })

-- the end of a command and of a launch

def QCmd.word (c : QCmd) (i : Nat) : Nat := (c.words.getD i 0).toNat

/-- R317: the SIG write of a command, if it asks for one, and the queue's MSI-X message (Table 14.4). -/
def sigWrite (s : State) (p : Nat) (c : QCmd) : State :=
  if bitsOf (c.word 0) 10 1 = 0 then s else procWrite s p c.pasid (c.word 3) (leBytes 8 (c.word 4)) (some c.q) true

/-- A command on an engine context, changed where it is listed. -/
def State.modCmd (s : State) (ck x n num : Nat) (f : EngCmd → EngCmd) : State :=
  s.modCtx ck x (fun c =>
    c.setEng n { c.eng n with cmds := (c.eng n).cmds.map (fun k => if k.num = num then f k else k) })

/-- Another agent decides the failure of a command: code and sub-cause. -/
def failCmd (s : State) (ck x n num code kind : Nat) : State :=
  s.modCmd ck x n num (fun k => { k with verdict := some { code := code, kind := kind } })

/-- Codes of the error record (Table 7.2). -/
def eTranslation : Nat := 0x01
def eProtection : Nat := 0x02
def eData : Nat := 0x03
def eAlignment : Nat := 0x04
def eBadBlock : Nat := 0x05
def eOverlap : Nat := 0x06
def eIndex : Nat := 0x07
def eTload : Nat := 0x08
def eAbsent : Nat := 0x09
def eTimeout : Nat := 0x0A
def eLtxAborted : Nat := 0x0B
def eAmp : Nat := 0x0C
def eCancelled : Nat := 0x0D
def eTrigSelf : Nat := 0x0E
def eAtomic : Nat := 0x0F
def eResource : Nat := 0x10

/-- R190: the code of a fault that a trap cause names. -/
def eOfCause (c : Nat) : Nat :=
  if c = cTranslation then eTranslation else if c = cProtection then eProtection else if c = cData then eData
  else if c = cAlignment then eAlignment else if c = cAtomic then eAtomic else if c = cResource then eResource
  else eBadBlock

/-- R281: what the abort of a transaction does to an accepted command: a pending commit of it fails; any other can no longer write
its result ranges. -/
def EngCmd.strike (id : Nat) (results : List (Nat × Nat)) (k : EngCmd) : EngCmd :=
  if k.trig.isSome then k
  else if k.op = 0xF then
    (if k.opnd % 65536 = id ∧ !k.ready then { k with verdict := k.verdict.orElse (fun _ => some { code := 0x0B }) } else k)
  else { k with struck := k.struck ++ results }

/-- R281: the commands that the launch's contexts have issued and that have not completed are struck by the abort of a transaction. -/
def strikeCmds (s : State) (t : Ltx) : State :=
  let results := (t.ranges.filter (fun r => !r.2.2)).map (fun r => (r.1, r.2.1))
  (members s t.launch).foldl (fun s m =>
    s.modCtx m.1 m.2 (fun c => { c with ec := c.ec.map (fun e => (e.1, { e.2 with cmds := e.2.cmds.map (EngCmd.strike t.id results) })) })) s

/-- R278: the device writes the state word of a transaction: where it lies in a context's scratchpad, only while that context
holds a continuation of the launch. -/
def writeStateWord (s : State) (t : Ltx) (v : Nat) : State :=
  match t.spad with
  | some (ck, x, o) =>
    let c := s.ctx ck x
    if c.resident && c.launch == t.launch && decide (o + 8 ≤ c.win.spad) then
      s.performCells (.spad ck 0) ((List.range 8).map (fun i => (spadPhys c.win.spad c.base (o + i), (leBytes 8 v).getD i 0)))
    else s
  | none => s.devWrite t.pkg t.pasid t.stateAt (leBytes 8 v)

/-- R281: a transaction aborts: its buffer goes and its state word takes STATE 2 with the cause. -/
def ltxAbort (s0 : State) (t : Ltx) (cause die : Nat) : State :=
  let s := strikeCmds s0 t
  let s1 := { s with ltxs := s.ltxs.map (fun (y : Ltx) =>
    if y.launch = t.launch ∧ y.id = t.id ∧ y.state = 0 then { y with state := 2, buffer := [] } else y) }
  writeStateWord s1 t (die % 256 * 65536 + cause * 256 + 2)

/-- R289: release a window; its pending `mred` and `mldr` commands fail with TIMEOUT, and A-slot contributions that wait
for their release will be discarded. -/
def releaseWindow (s : State) (w : Window) : State :=
  let gone (x : Nat × Ctx) : Nat × Ctx := if x.2.redAt = some (w.id + 1) then (x.1, { x.2 with redAt := some 0 }) else x
  let s1 := { s with windows := s.windows.filter (fun y => y.id != w.id)
                     cores := s.cores.map (fun c => (c.1, { c.2 with ctxs := c.2.ctxs.map gone })) }
  w.contribs.foldl (fun s c =>
    match c.cmd with
    | some (ck, x, n, num) => failCmd s ck x n num eTimeout 0
    | none => s) s1

/-- R293: windows and transactions of a launch are released. -/
def releaseLaunchHolds (s : State) (id : Nat) : State :=
  let s1 := (s.windows.filter (fun w => w.launch == id)).foldl releaseWindow s
  let s2 := (s1.ltxs.filter (fun t => t.launch == id && t.state == 0)).foldl (fun s t => ltxAbort s t 6 0) s1
  { s2 with ltxs := s2.ltxs.filter (fun t => t.launch != id || t.state == 1) }

/-- R17, R223, R224: a core gives up a launch's table set, IM positions and chunks. -/
def coreForget (id : Nat) (c : Core) : Core :=
  let held := c.owner == some id
  { c with
    owner := if held then none else c.owner
    front := if held then [] else c.front
    back := if held then [] else c.back
    sealed := if held then false else c.sealed
    bases := c.bases.erase id
    chunks := c.chunks.filter (fun k => k.launch != id)
    started := c.started.filter (· != id) }

/-- R320: the completion record. -/
def completionBytes (s : State) (l : Launch) (status : Nat) : List Byte :=
  leBytes 8 (status + (if l.late then 256 else 0)) ++ leBytes 8 l.finished ++ leBytes 8 l.errors ++
  leBytes 8 (s.devTime l.pkg) ++ leBytes 8 l.refusal.1 ++ leBytes 8 l.refusal.2

/-- R320, R375: the completion record and the SIG write of a launch that ends with a status. -/
def reportLaunch (s : State) (l : Launch) (status : Nat) (withRecord : Bool) : State :=
  let s1 :=
    if withRecord then procWrite s l.pkg l.pasid l.completion (completionBytes s l status) (some l.cmd.q) else s
  sigWrite s1 l.pkg l.cmd

/-- R230, R293, R320: a launch ends: its holds are released, the record and the SIG written, the cores freed. -/
def endLaunch (s : State) (id status : Nat) : State :=
  match s.launch id with
  | none => s
  | some l =>
    let s1 := releaseLaunchHolds s id
    let s2 := reportLaunch s1 l status true
    let s3 := l.abortCmds.foldl (fun s c => sigWrite s l.pkg c) s2
    { s3 with
      launches := s3.launches.filter (fun x => x.id != id)
      cores := s3.cores.map (fun p => (p.1, coreForget id p.2)) }

/-- R230: a launch whose items have all completed ends. -/
def launchDone (s : State) (id : Nat) : State :=
  match s.launch id with
  | some l => if l.phase == .running && l.finished == l.n then endLaunch s id 0 else s
  | none => s

-- coming to rest

/-- A command is a state command (R202): every `ae.*` form but the matrix form. -/
def isStateCmd (c : EngCmd) : Bool := decide (0x11 ≤ c.op) && decide (c.op ≤ 0x15) && !(c.op == 0x11 && c.flags == 1)

/-- R338 step 4: a state command that has not performed counts as unstarted. -/
def EngCmd.recall (c : EngCmd) : EngCmd :=
  if isStateCmd c && !c.ready && c.verdict.isNone then { c with started := false, body := [], data := [], writes := [] } else c

/-- R338 step 4: the state commands of a context that have not performed return from its die's engine to their queues. -/
def recallAmp (s : State) (ck x : Nat) : State :=
  (s.modDie (dieOf ck) (fun d => { d with ampQ := d.ampQ.filter (fun a => !(a.core == ck && a.ctx == x)) })).modCtx ck x (fun c =>
    { c with ec := c.ec.map (fun e => (e.1, { e.2 with cmds := e.2.cmds.map EngCmd.recall })) })

/-- R338 steps 1, 2 and 4, R337: a context stops, is rolled back, and rests. -/
def stopCtx (s : State) (ck x : Nat) (r : RestInfo) : State :=
  (recallAmp (withdraw (rollback s ck x) ck x) ck x).modCtx ck x (fun c =>
    { c with status := .resting, rest := some r, preempt := false, deferred := 0 })

/-- R338 steps 3 and 4: its stores are acknowledged and its started commands have ended, and the loads issued before its
checkpoint have written their values. -/
def atRest (s : State) (ck x : Nat) : Bool :=
  !unacked s ck x 2 && !enginesBusy (s.ctx ck x) && (s.ctx ck x).loads.isEmpty

/-- Contexts of a launch that have not come to rest or left. -/
def launchBusy (s : State) (id : Nat) : Bool := !(members s id).isEmpty

/-- R337: an aborting launch ends when none of its contexts is left. -/
def abortDone (s : State) (id : Nat) : State :=
  match s.launch id with
  | some l =>
    match l.phase with
    | .aborting st => if launchBusy s id then s else endLaunch s id st
    | _ => s
  | none => s

/-- R337: abort a launch: every resident context rolls back and rests until its started commands have ended; unstarted
ones are discarded; open transactions abort with CAUSE 3. -/
def abortLaunch (s : State) (id status : Nat) : State :=
  let s0 := s.modLaunch id (fun l => { l with phase := .aborting status, readyQ := [], ranges := [], returned := [], passed := [] })
  let s1 := (members s id).foldl (fun s m =>
    let s' := if (s.ctx m.1 m.2).status == .resting then
        s.modCtx m.1 m.2 (fun c => { c with rest := some { kind := 2 } })
      else stopCtx s m.1 m.2 { kind := 2 }
    s'.modCtx m.1 m.2 (fun c =>
      { c with ec := c.ec.map (fun e => (e.1, { e.2 with cmds := e.2.cmds.filter (·.started) })) })) s0
  let s2 := (s1.ltxs.filter (fun t => t.launch == id && t.state == 0)).foldl (fun s t => ltxAbort s t 3 0) s1
  let s3 := (members s2 id).foldl (fun s m => if atRest s m.1 m.2 then leave s m.1 m.2 else s) s2
  abortDone s3 id

/-- R337: the trap policy of the launch disposes of a trapped record whose save area has been written. A continuation whose
checkpoint is the TRAP_PC bundle of its own pickup is parked. -/
def trapPolicy (s : State) (ck x cause : Nat) (l : Launch) : State :=
  let c := s.ctx ck x
  let p := pkgOf ck
  if l.policy = 0 then abortLaunch s l.id 6
  else
    let again := c.snap.pc == l.image.trapPc && !c.ckSince
    if l.policy = 1 && l.image.trapPc != 0xFFFFFFFF && !again then
      let s1 := s.devWrite p c.pasid c.recAddr (leBytes 8 (recordWord l.imageSlot l.image.trapPc 0 cause false false))
      pushReady (leave s1 ck x) l.id (dieOf ck) c.slot
    else leave s ck x

/-- R117 steps 3 to 5, R118, R216, R217, R222, R230: a context whose stores are acknowledged leaves by `yield` or `exit`: the record
is written with its KIND and goes to the ready list or the driver; or the item completes, its slot is free, and the launch ends
with its last item. -/
def finishLeave (s : State) (ck x : Nat) (r : RestInfo) (l : Launch) : State :=
  let c := s.ctx ck x
  if r.kind = 5 then
    let held := (s.core ck).chunks.find? (fun k => k.launch == c.launch && decide (k.lo < k.hi))
    let s1 := (leave s ck x).modCtx ck x (fun k => { k with prefer := held.map (fun h => (c.launch, h.hi)) })
    launchDone (s1.modLaunch c.launch (fun l =>
      { l with finished := l.finished + 1
               errors := if r.cause = 0 then l.errors else l.errors + 1
               used := l.used.filter (· != c.slot) })) c.launch
  else
    let w := recordWord l.imageSlot r.pc (r.kind - 2) 0 false false
    let s1 := leave (s.devWrite (pkgOf ck) c.pasid c.recAddr (recordBytes c w)) ck x
    if r.kind = 3 then pushReady s1 l.id (dieOf ck) c.slot else s1

/-- R338 steps 5 and 6, R36 step 5: the transactions of a pre-empted context abort, then the save area and the record
are written, and a trap's policy applies. A context of an aborted launch only leaves. -/
def finishRest (s : State) (ck x : Nat) : State :=
  let c := s.ctx ck x
  match c.rest, s.launchOf ck x with
  | some r, some l =>
    if r.kind = 2 then abortDone (leave s ck x) l.id
    else if 3 ≤ r.kind then finishLeave s ck x r l
    else
      let s0 :=
        if r.kind = 0 then
          (s.ltxs.filter (fun t => t.launch == l.id && t.state == 0 && t.parties.contains (4 * ck + x))).foldl
            (fun s t => ltxAbort s t 3 0) s
        else s
      let s1 := writeSaveArea s0 ck x r.tcause
      let w := recordWord l.imageSlot c.snap.pc 3 r.cause (r.kind == 1) true
      let s2 := s1.devWrite (pkgOf ck) c.pasid c.recAddr (recordBytes c w)
      if r.kind = 1 then trapPolicy (s2.count (pkgOf ck) 0x100020) ck x r.cause l
      else (leave s2 ck x).count (pkgOf ck) 0x100018
  | some _, none => leave s ck x
  | none, _ => s

/-- Finish a context that rests, if nothing holds it any more. -/
def settle (s : State) (ck x : Nat) : State :=
  if (s.ctx ck x).status == .resting && atRest s ck x then finishRest s ck x else s

/-- Table 4.4: TCAUSE of a trap: bundle index, `trap` code and cause. -/
def tcauseWord (pc code cause : Nat) : Word := BitVec.ofNat 64 (pc % 2 ^ 32 * 2 ^ 32 + code % 65536 * 65536 + cause % 256)

/-- R36: a trap strikes a context at a bundle index: it is rolled back to its last checkpoint, and as soon as its stores
are acknowledged and its started commands have ended, the save area and the record are written and the launch's trap
policy applies. -/
def takeTrap (s : State) (ck x cause pc code : Nat) : State :=
  settle (stopCtx s ck x { kind := 1, cause := cause, tcause := tcauseWord pc code cause }) ck x

/-- R335: a trap strikes a context that may rest already: one that rests for a pre-emption then rests for the trap. -/
def trapResting (s : State) (ck x cause pc : Nat) : State :=
  let c := s.ctx ck x
  if c.status == .resting && (match c.rest with | some r => r.kind != 0 | none => false) then settle s ck x
  else takeTrap s ck x cause pc 0

/-- R338: a pre-emption of a context that holds a continuation and no committing bundle in progress; R335: a deferred cause
resolves as the trap. -/
def preemptCtx (s : State) (ck x : Nat) : State :=
  let c := s.ctx ck x
  if c.deferred != 0 then takeTrap s ck x c.deferred c.arch.pc 0
  else settle (stopCtx s ck x { kind := 0 }) ck x

-- the frame

/-- A trap raised by the bundle being performed: the rest of the bundle is dropped. -/
def State.trapFrame (s : State) (cause : Nat) (code : Nat := 0) : State :=
  let f := s.frame
  let s1 := takeTrap s f.core f.ctx cause f.pc code
  { s1 with frame := { f with todo := [], gone := true } }

/-- R38, R338: the bundle being performed blocks: nothing of it stays, and it is tried again. -/
def State.blockFrame (s : State) (w : Wait) : State :=
  let f := s.frame
  let s1 := s.modCtx f.core f.ctx (fun c => { c with arch := f.old, status := .blocked w })
  { s1 with frame := { f with todo := [], gone := true } }

/-- The bundle being performed stalls: nothing of it stays, and it is tried again in a later cycle. -/
def State.stallFrame (s : State) : State :=
  let f := s.frame
  let s1 := s.modCtx f.core f.ctx (fun c => { c with arch := f.old })
  { s1 with frame := { f with todo := [], gone := true } }

end Sys2Proof.Machine
end

