-- ==== Sys2Proof/Machine/Operands.lean ====
section
/-!
DEFINITION. Every operand form: header fields (Table 3.1), the literal (R72), scalar and predicate operands (R14, R99),
effective addresses (R125), group masks of `sbind` and its like (R145), the operand codes of group-table entries
(Table 3.7) and the landing of their results (R20, R26, R153, R154).
-/

namespace Sys2Proof.Machine

-- header fields
def hdrPopq (h : BitVec 32) (k : Nat) : Bool := h.getLsbD k
def hdrPopl (h : BitVec 32) : Bool := h.getLsbD 8
def hdrPopr (h : BitVec 32) : Bool := h.getLsbD 9
def hdrCk (h : BitVec 32) : Bool := h.getLsbD 10
def hdrDr (h : BitVec 32) : Bool := h.getLsbD 11
def hdrIt (h : BitVec 32) : Nat := bitsOf h.toNat 12 2
def hdrLv (h : BitVec 32) : Nat := bitsOf h.toNat 14 3
def hdrBp (h : BitVec 32) : Nat := bitsOf h.toNat 17 3
def hdrBn (h : BitVec 32) : Bool := h.getLsbD 20
def hdrLo (h : BitVec 32) : Nat := bitsOf h.toNat 21 3

/-- The slot that an LO value names. -/
def posLo : Pos → Nat
  | .s0 => 1
  | .s1 => 2
  | .a => 3
  | .e => 4
  | .x => 5
  | _ => 0

/-- R72: LO names the slot being performed. -/
def Frame.hasLit (f : Frame) : Bool := hdrLo f.hdr != 0 && hdrLo f.hdr == posLo f.pos

/-- R72: the literal of the slot being performed, 0 when LO does not name it. -/
def Frame.litVal (f : Frame) : BitVec 32 := if f.hasLit then f.lit else 0

-- scalar operands

/-- R14: the head of the LDQ. -/
def Arch.ldqHead (a : Arch) : Word :=
  match a.ldq with
  | [] => 0
  | e :: _ => e.val.getD 0

/-- R14: a scalar register as a source. -/
def Arch.readS (a : Arch) (n : Nat) : Word :=
  if n = 0 then 0 else if n = 31 then a.ldqHead else a.s.get n 0

/-- R14: a scalar register as a destination: usable by the next bundle. -/
def Arch.writeS (a : Arch) (n : Nat) (v : Word) : Arch :=
  if n = 0 then a else { a with s := a.s.set n v, sReady := a.sReady.erase n }

/-- R15: a result usable from a later cycle. -/
def Arch.writeLate (a : Arch) (n : Nat) (v : Word) (cycle : Nat) : Arch :=
  if n = 0 then a else { a with s := a.s.set n v, sReady := a.sReady.set n cycle }

/-- R12: a source register of the bundle being performed. -/
def State.srcS (s : State) (r : BitVec 5) : Word := s.frame.old.readS r.toNat

/-- R99: the second operand of an integer form: the literal, sign-extended, or a register. -/
def State.src2 (s : State) (r : BitVec 5) : Word :=
  if s.frame.hasLit then s.frame.lit.signExtend 64 else s.srcS r

/-- R111, R120: a count or threshold: the literal, zero-extended, or a register. -/
def State.srcCount (s : State) (r : BitVec 5) : Word :=
  if s.frame.hasLit then s.frame.lit.setWidth 64 else s.srcS r

/-- R12: a predicate of the bundle being performed. -/
def State.srcP (s : State) (k : BitVec 3) : Bool := readP s.frame.old.p k.toNat

/-- Change the registers of the context whose bundle is performed. -/
def State.arch (s : State) (f : Arch → Arch) : State := s.modArch s.frame.core s.frame.ctx f

/-- Write a scalar register of the context whose bundle is performed. -/
def State.dstS (s : State) (r : BitVec 5) (v : Word) : State := s.arch (fun a => a.writeS r.toNat v)

/-- R15: a result usable by the bundle issued `dist` cycles later. -/
def State.dstLate (s : State) (r : BitVec 5) (v : Word) (dist : Nat) : State :=
  s.arch (fun a => a.writeLate r.toNat v ((s.core s.frame.core).cycle + dist))

/-- Write a predicate of the context whose bundle is performed. -/
def State.dstP (s : State) (k : BitVec 3) (v : Bool) : State :=
  s.arch (fun a => { a with p := writeP a.p k.toNat v })

/-- The context whose bundle is performed. -/
def State.me (s : State) : Ctx := s.ctx s.frame.core s.frame.ctx
def State.modMe (s : State) (f : Ctx → Ctx) : State := s.modCtx s.frame.core s.frame.ctx f
def State.myCore (s : State) : Core := s.core s.frame.core

-- addresses

/-- R125: s[BASE] + s[X] + sext64(L), modulo 2^64. -/
def State.eaX (s : State) (base x : BitVec 5) : Nat :=
  (s.srcS base + s.srcS x + s.frame.litVal.signExtend 64).toNat

/-- R125: s[BASE] + sext64(L), modulo 2^64. -/
def State.ea (s : State) (base : BitVec 5) : Nat := (s.srcS base + s.frame.litVal.signExtend 64).toNat

/-- R145: the groups a mask register selects; register s0 selects all. -/
def State.groupMask (s : State) (x : BitVec 5) : List Nat :=
  if x = 0 then List.range 8 else (List.range 8).filter (fun g => (s.srcS x).getLsbD g)

-- entry operands

/-- The lane group whose entry is performed. -/
def Frame.grp (f : Frame) : Nat :=
  match f.pos with
  | .lg k => k
  | _ => 0

/-- R14, R153: lane mask k of a group. -/
def Arch.mask (a : Arch) (g k : Nat) : LaneMask := if k = 0 then BitVec.allOnes 32 else a.masks.get (8 * g + k) (BitVec.allOnes 32)

/-- R25: the head entry of an input latch. -/
def Ctx.latchHead (c : Ctx) (a : Arch) (key : Nat) : Option LatchEntry :=
  match a.latches.find key with
  | none => none
  | some b => (c.latchBuf.get key []).find? (fun e => e.num == b.pos)

/-- R14, R59: the RBQ head's word of a lane of a group. -/
def Arch.rbqWord (a : Arch) (g l : Nat) : Lane :=
  match a.rbq with
  | [] => 0
  | e :: _ => e.extractLsb' (32 * (32 * g + l)) 32

/-- Table 3.7: an operand code as a source, read before the bundle issued. -/
def State.entSrc (s : State) (code : BitVec 6) : VReg :=
  let f := s.frame
  let g := f.grp
  let c := code.toNat
  if c < 48 then f.old.v.get (64 * g + c) 0
  else if c < 56 then
    match f.was.latchHead f.old (8 * g + (c - 48)) with
    | some e => e.data
    | none => 0
  else if c = 60 then vregOf (fun _ => f.arg.setWidth 32)
  else if c = 61 then vregOf (fun l => f.old.rbqWord g l)
  else if c = 62 then vregOf (fun l => BitVec.ofNat 32 l)
  else 0

/-- The active lanes of an entry (R153). -/
def State.lanes (s : State) (e : Entry) : LaneMask := s.frame.old.mask s.frame.grp e.mask.toNat

/-- The cycle at whose end a result of the bundle lands (R20). -/
def State.dueCycle (s : State) : Nat := s.myCore.cycle + Config.latency s.frame.cls - 1

/-- R20: an exposed result starts. -/
def State.expose (s : State) (p : Pending) : State := s.modMe (fun c => { c with inflight := c.inflight ++ [p] })


/-- R26: reserve the next entry of an output queue; its place in the list of held entries. -/
def State.reserve (s : State) (g k : Nat) : State × Nat :=
  match s.me.arch.queues.find (8 * g + k) with
  | none => (s, 0)
  | some b =>
    (s.arch (fun a =>
      { a with
        queues := a.queues.set (8 * g + k) { b with pos := b.pos + 1 }
        held := a.held ++ [{ group := g, queue := k, num := b.pos, desc := b.desc, data := none }] }), s.me.arch.held.length)

/-- R153, R154: the result of an entry for its destination code: lanes outside `lanes` keep a register's contents and are
zero in a queue entry. -/
def State.emit (s : State) (d : BitVec 6) (data : VReg) (lanes : LaneMask) (qsat : Bool := false) : State :=
  let g := s.frame.grp
  let i := d.toNat
  if i < 48 then
    (s.modMe (fun c => { c with shadowV := addOnce (64 * g + i) c.shadowV })).expose
      { group := g, dest := .vreg i, data := data, lanes := lanes, due := s.dueCycle, qsat := qsat }
  else if i < 52 then
    let r := s.reserve g (i - 48)
    r.1.expose { group := g, dest := .queue r.2, data := mergeLanes lanes 0 data, lanes := BitVec.allOnes 32,
                 due := s.dueCycle, qsat := qsat }
  else if qsat then
    s.expose { group := g, dest := .none, data := 0, lanes := 0, due := s.dueCycle, qsat := true }
  else s

/-- A lane-wise result. -/
def State.emitLanes (s : State) (e : Entry) (f : Nat → Lane) : State := s.emit e.d (vregOf f) (s.lanes e)

/-- R170: a mask result. -/
def State.emitMask (s : State) (d : BitVec 6) (m : LaneMask) : State :=
  if d.toNat = 0 then s
  else s.expose { group := s.frame.grp, dest := .mask d.toNat, data := m.setWidth 1024, lanes := BitVec.allOnes 32,
                  due := s.dueCycle }

/-- R178: a group-register result. -/
def State.emitGreg (s : State) (k : Nat) (v : BitVec 32) : State :=
  s.expose { group := s.frame.grp, dest := .greg k, data := v.setWidth 1024, lanes := BitVec.allOnes 32,
             due := s.dueCycle }

/-- Fill the reserved entry at a place. -/
def fillHeld (data : VReg) : Nat → List Held → List Held
  | _, [] => []
  | 0, h :: t => { h with data := some data } :: t
  | n + 1, h :: t => h :: fillHeld data n t

/-- R20: a result lands in the registers of its context. -/
def landArch (a : Arch) (p : Pending) : Arch :=
  match p.dest with
  | .vreg i => { a with v := a.v.set (64 * p.group + i) (mergeLanes p.lanes (a.v.get (64 * p.group + i) 0) p.data) }
  | .mask k => { a with masks := a.masks.set (8 * p.group + k) (p.data.setWidth 32) }
  | .greg k => { a with gregs := a.gregs.set (8 * p.group + k) (p.data.setWidth 32) }
  | .queue i => { a with held := fillHeld p.data i a.held }
  | .none => a

/-- R20, R69: a result lands; one that saturated an infinity sets QSAT. -/
def landOne (c : Ctx) (p : Pending) : Ctx :=
  { c with arch := landArch c.arch p, fstat := if p.qsat then setQsat c.fstat else c.fstat }

/-- R20, R40: the results of a context that are due by a cycle land, in the order they started. -/
def landDue (cycle : Nat) (c : Ctx) : Ctx :=
  let go := c.inflight.filter (fun p => p.due ≤ cycle)
  let c1 := { c with inflight := c.inflight.filter (fun p => cycle < p.due) }
  go.foldl landOne c1

end Sys2Proof.Machine
end

