-- ==== Sys2Proof/Machine/Access.lean ====
section
/-!
DEFINITION. Accesses of a context: the checks on a range of addresses (R125), reads of memory (R31, R239 to R244) and
stores (R31, R130), the launch's image and its IM positions (R86, R94), and layer-transaction inputs (R279).
-/

namespace Sys2Proof.Machine

/-- The image of the launch whose continuation a context holds. -/
def imageOf (s : State) (ck x : Nat) : Image :=
  match s.launchOf ck x with
  | some l => l.image
  | none => {}

/-- R86, R94: an IM position of a context's image, by bundle index; none outside the image's extent. -/
def imAt (s : State) (ck x idx : Nat) : Option ImWord :=
  let c := s.core ck
  let k := c.ctx x
  if idx < (imageOf s ck x).im.length then
    match c.bases.find k.launch with
    | some b => some (c.im.get (b + idx) {})
    | none => none
  else none

/-- The first piece of a range that does not translate for the access, and how. -/
def rangeStop (s : State) (ck x : Nat) (a : Access) : List (Nat × Nat) → Option Reach
  | [] => none
  | (p, _) :: t =>
    match reach s ck x p a with
    | .ok _ => rangeStop s ck x a t
    | r => some r

/-- R125 for a form that reads or writes `n` bytes at `ea`, aligned to `align`: none when the access may go on. -/
def accessStop (s : State) (ck x ea n align : Nat) (a : Access) : Option Reach :=
  if 2 ^ 56 ≤ ea then some (.trap cTranslation)
  else if ea % align ≠ 0 then some (.trap cAlignment)
  else rangeStop s ck x a (blockPieces ea n)

/-- Bytes of a range as a context sees them past L1; pieces that do not translate read as nothing. -/
def rangeBytes (s : State) (ck x : Nat) : List (Nat × Nat) → List Byte
  | [] => []
  | (p, n) :: t =>
    match reach s ck x p .read with
    | .ok g => s.ctxView ck x g n ++ rangeBytes s ck x t
    | _ => rangeBytes s ck x t

/-- Some byte of a range is marked uncorrectable. -/
def rangeMarked (s : State) (ck x : Nat) : List (Nat × Nat) → Bool
  | [] => false
  | (p, n) :: t =>
    match reach s ck x p .read with
    | .ok g => s.marked g.place n || rangeMarked s ck x t
    | _ => rangeMarked s ck x t

/-- R130: a target in the issuing core's own scratchpad. -/
def ownSpad (ck : Nat) (p : Place) : Bool :=
  match p with
  | .spad c _ => c == ck
  | _ => false

/-- R130: a store of a context: performed in its own core's scratchpad, withheld elsewhere. -/
def storeTo (s : State) (ck x : Nat) (t : Target) (bs : List Byte) (rd : Nat := 0) : State :=
  if ownSpad ck t.place then noteFlag (s.perform t.place bs) ck x t.place.key.2 bs.length
  else s.modCore ck (fun c => { c with wbuf := withhold { mkStore (s.ctx ck x) ck x t bs with rd := rd } c.wbuf })

/-- A store of a range, piece by piece. -/
def storeRange (s : State) (ck x : Nat) : List (Nat × Nat) → List Byte → State
  | [], _ => s
  | (p, n) :: t, bs =>
    match reach s ck x p .write with
    | .ok g => storeRange (storeTo s ck x g (bs.take n)) ck x t (bs.drop n)
    | _ => storeRange s ck x t (bs.drop n)

/-- R279, R282: bytes of memory that a held transaction retains as input. -/
def ltxInput (s : State) (p : Place) (n : Nat) : Bool :=
  match p with
  | .hbm a => s.ltxs.any (fun t => t.state != 1 &&
      t.ranges.any (fun r => r.2.2 && decide (r.1 < a + n) && decide (a < r.1 + r.2.1)))
  | _ => false

/-- R289: the registered window whose HOME holds an HBM address, with the offset in HOME. -/
def windowAt (fa : Nat) : List Window → Option (Window × Nat)
  | [] => none
  | w :: t =>
    match w.home.find? (fun h => decide (h.1 ≤ fa) && decide (fa < h.1 + h.2.2)) with
    | some h => some (w, h.2.1 + (fa - h.1))
    | none => windowAt fa t

-- checks shared by several forms: cause, or nothing; `miss` is a stall on the micro-TLB

/-- The cause of a stop, 0 for a micro-TLB miss. -/
def Reach.cause : Reach → Nat
  | .trap c => c
  | _ => 0

/-- What a form finds at issue: it may go on, it raises a cause, it stalls for a page walk of an address, it stalls
without blocking, or it blocks. -/
inductive Gate where
  | go
  | trap (cause : Nat)
  | walk (va : Nat)
  | stall
  | block (w : Wait)
  deriving DecidableEq, Repr

/-- The first of two gates that is not open. -/
def Gate.and : Gate → Gate → Gate
  | .go, g => g
  | g, _ => g

/-- A gate of a list of gates. -/
def Gate.all (l : List Gate) : Gate := l.foldl Gate.and .go

/-- A gate by kind: 0 open, 1 trap or a walk that may end in one, 2 stall, 3 block. -/
def Gate.kind : Gate → Nat
  | .go => 0
  | .trap _ => 1
  | .walk _ => 1
  | .stall => 2
  | .block _ => 3

/-- The gate of parts that are checked together, in the order of R335: the first that traps, or whose translation is still to be
walked and may yet trap; then a stall, then a wait that blocks. -/
def Gate.pick (l : List Gate) : Gate :=
  match l.find? (fun g => g.kind == 1) with
  | some g => g
  | none =>
    match l.find? (fun g => g.kind == 2) with
    | some g => g
    | none => (l.find? (fun g => g.kind == 3)).getD .go

def gateOf (va : Nat) : Option Reach → Gate
  | none => .go
  | some (.trap c) => .trap c
  | some _ => .walk va

/-- The first address of a range that misses. -/
def firstMiss (s : State) (ck x : Nat) (a : Access) : List (Nat × Nat) → Nat
  | [] => 0
  | (p, _) :: t => match reach s ck x p a with | .miss => p | _ => firstMiss s ck x a t

/-- R125: the gate of an access. -/
def accessGate (s : State) (ea n align : Nat) (a : Access) : Gate :=
  let f := s.frame
  gateOf (firstMiss s f.core f.ctx a (blockPieces ea n)) (accessStop s f.core f.ctx ea n align a)

/-- R127: the gate of a scope index. -/
def scopeGate (s : State) (n : Nat) : Gate :=
  match scopeCause s.frame.old n with
  | some c => .trap c
  | none => .go

/-- A condition that raises a cause. -/
def gateIf (b : Bool) (g : Gate) : Gate := if b then g else .go

/-- Perform a form behind its gate. -/
def behind (g : Gate) (s : State) (go : State → State) : Out :=
  match g with
  | .go => .next (go s)
  | .trap c => .next (s.trapFrame c)
  | .walk va => .next (s.stallFrame.modCtx s.frame.core s.frame.ctx (fun c => { c with walk := some va }))
  | .stall => .next s.stallFrame
  | .block w => .next (s.blockFrame w)

/-- The snapshot of a scope index for the bundle being performed (R252). -/
def State.scopeNow (s : State) (n : Nat) : Scope := scopeEntry s s.frame.core s.frame.ctx s.frame.old n

end Sys2Proof.Machine
end

