-- ==== Sys2Proof/Machine/LoadStore.lean ====
section
/-!
DEFINITION. Loads (R126, R129, R131), stores (R130), the ordering forms (R133, R134), `l1inv` and `pref` (R151, R152), and
the events by which loads return, stores drain and are acknowledged, and walks end (R32, R130, R246, R251, R263, R347).
-/

namespace Sys2Proof.Machine

-- reading

/-- R240, R244, R260: a target that L1 may hold. -/
def cacheable (t : Target) : Bool :=
  match t.place with
  | .hbm _ => t.race == 0
  | _ => false

/-- Some store of a list covers a byte of a read at a place. -/
def storesHit (l : List Store) (p : Place) (n : Nat) : Bool :=
  let k := p.key
  l.any (fun st => st.place.key.1 == k.1 && st.cells.any (fun c => decide (k.2 ≤ c.1) && decide (c.1 < k.2 + n)))

/-- A store that a context sees over what its die reads covers some byte of a read. -/
def ownPending (s : State) (ck x : Nat) (t : Target) (n : Nat) : Bool := storesHit (s.ownStores ck x t) t.place n

/-- The line of a target in HBM, whole. -/
def lineTarget (t : Target) : Target := { t with place := t.place.block }

/-- R129, R239 to R244, R260: a read of a context at a place, under the stores of `own`: from L1 where it may hit, else through L2
or from the home; a miss fills L1. True when it went past L1. -/
def readAt (s : State) (ck : Nat) (own : List Store) (l : Load) : State × List Byte × Bool :=
  let laid (bs : List Byte) := overlayStores own l.target.place bs
  match l.target.place with
  | .hbm a =>
    let useL1 := cacheable l.target && !l.byp
    match (if useL1 then s.l1Line ck (a / 128) else none) with
    | some y =>
      let h := l1Holder s ck (a / 128)
      (s.modCore h (fun c => { c with l1 := rripHit (a / 128) c.l1 }), laid (fromLine y a l.size), false)
    | none =>
      let dk := dieOf ck
      let r := l2Read s dk (lineTarget l.target) (a / 128 * 128) 128 l.rd
      let h := l1Holder s ck (a / 128)
      let line : Line := { addr := a / 128, data := vregOfBytes r.2, rrpv := l.rd }
      let s2 := if useL1 && l.rd != 3 && !l.nofill && !storesHit own l.target.place.block 128 then
          r.1.modCore h (fun c => { c with l1 := rripFill Config.l1Lines line c.l1 })
        else r.1
      (s2, laid ((r.2.drop (a % 128)).take l.size), true)
  | p => (s, laid (s.dieSees (dieOf ck) { l.target with place := p } l.size), true)

/-- The value a load returns (R129). -/
def loadValue (size : Nat) (signed : Bool) (bs : List Byte) : Word :=
  let v := leNat bs
  if signed then BitVec.ofInt 64 (signedOf (8 * size) v) else BitVec.ofNat 64 v

/-- Change one load of a context. -/
def modLoad (s : State) (ck x id : Nat) (f : Load → Load) : State :=
  s.modCtx ck x (fun c => { c with loads := c.loads.map (fun l => if l.id = id then f l else l) })

/-- R262: the check of a read by a context at its target: whether it races in trap mode. -/
def checkRead (s : State) (ck x : Nat) (t : Target) (n : Nat) : State × Bool :=
  match t.place with
  | .hbm a => if t.race != 0 then let r := raceRead s ck x a n t.race; (r.1, r.2 && t.race == 1) else (s, false)
  | _ => (s, false)

/-- R129, R262: a load performs its read. -/
def performLoad (s : State) (ck x : Nat) (l : Load) : State :=
  if l.data.isSome then s
  else
    let r := readAt s ck (s.ownStores ck x l.target) l
    let chk := checkRead r.1 ck x l.target l.size
    modLoad chk.1 ck x l.id (fun y =>
      { y with data := some (loadValue l.size l.signed r.2.1), ue := r.2.2 && s.marked l.target.place l.size, raced := chk.2 })

/-- R246: two ranges share an aligned unit of 8 bytes. -/
def sameUnit (a n b m : Nat) : Bool := decide (a / 8 ≤ (b + m - 1) / 8) && decide (b / 8 ≤ (a + n - 1) / 8)

/-- R245, R246: outstanding loads of a context in the units of a range perform. -/
def performLoads (s : State) (ck x : Nat) (l : List Load) (p : Place) (n : Nat) : State :=
  let k := p.key
  (l.filter (fun l => l.target.place.key.1 == k.1 && sameUnit l.target.place.key.2 l.size k.2 n)).foldl
    (fun s l => performLoad s ck x l) s

/-- R245: every outstanding load of a context performs. -/
def performAllLoads (s : State) (ck x : Nat) : State :=
  (s.ctx ck x).loads.foldl (fun s l => performLoad s ck x l) s

/-- R126, R114: a value reaches its register or LDQ entry, with what back-edges have added to the register meanwhile. -/
def deliverArch (id : Nat) (v : Word) (a : Arch) : Arch :=
  let regs := a.sWait.filter (fun p => p.2 == id)
  { a with
    s := regs.foldl (fun t p => t.set p.1 (v + a.sAdd.get p.1 0)) a.s
    sWait := a.sWait.filter (fun p => p.2 != id)
    sAdd := a.sAdd.filter (fun p => !regs.any (fun r => r.1 == p.1))
    ldq := a.ldq.map (fun e => if e.id = id then { e with val := some v } else e) }

/-- A free value for the register of a load from before the checkpoint to which its own trap rolls back. -/
def freeWord (s : State) : Word := BitVec.ofNat 64 (leNat ((List.range 8).map (fun i => Config.freeByte (8 * s.free + i))))

/-- A load gives its value to its destination, in the registers and in the snapshot. -/
def giveValue (s : State) (ck x : Nat) (l : Load) (v : Word) : State :=
  s.modCtx ck x (fun c =>
    { c with loads := c.loads.drop 1, arch := deliverArch l.id v c.arch, snap := deliverArch l.id v c.snap })

/-- R126, R129, R131, R263: the oldest load writes its value if it has performed, and is then the acquire it was issued as; a plain
load marked uncorrectable or racing traps; a committing one gets all ones and defers DATA_UE. True when something was
delivered. -/
def deliverOne (s : State) (ck x : Nat) : State × Bool :=
  match (s.ctx ck x).loads with
  | [] => (s, false)
  | l :: _ =>
    match l.data with
    | none => (s, false)
    | some v =>
      if l.raced || (l.ue && !l.commit) then
        (trapResting (giveValue s ck x l (freeWord s)) ck x (if l.raced then cRace else cData) l.pc, false)
      else
        let s1 := giveValue s ck x l (if l.ue then BitVec.allOnes 64 else v)
        let s2 := if l.ue then s1.modCtx ck x (fun c => { c with deferred := cData }) else s1
        (match l.acq with
         | some (sc, e) => acquire s2 ck x sc e
         | none => s2, true)

/-- Values reach their destinations in load order (R126). -/
def deliverAll : Nat → State → Nat → Nat → State
  | 0, s, _, _ => s
  | n + 1, s, ck, x => let r := deliverOne s ck x; if r.2 then deliverAll n r.1 ck x else r.1

/-- R172: a load from the own scratchpad reads the bytes that stood there as its bundle came to issue, its own request's writes
undone. -/
def performOwn (s : State) (ck x : Nat) (l : Load) : State :=
  let off := l.target.place.key.2
  modLoad s ck x l.id (fun y =>
    { y with data := some (loadValue l.size l.signed (Mem.bytes s.frame.spad off l.size)), ue := s.marked l.target.place l.size })

/-- R126: a returning form issues: its LDQ entry is reserved or its register waits. -/
def State.returning (s : State) (d : BitVec 5) (l : Load) : State :=
  s.modMe (fun c =>
    let id := c.nextLoad
    let dst := d.toNat
    let a := if dst = 0 then { c.arch with ldq := c.arch.ldq ++ [{ id := id, val := none }] }
      else { c.arch with sWait := c.arch.sWait.set dst id, sReady := c.arch.sReady.erase dst }
    { c with nextLoad := id + 1, arch := a, loads := c.loads ++ [{ l with id := id, dst := dst, pc := s.frame.pc }] })

/-- R126: a bundle whose returns need more LDQ entries than there are stalls. -/
def ldqGate (d : BitVec 5) (n : Nat) (s : State) : Gate :=
  gateIf (d == 0 && decide (Config.ldqEntries < s.frame.old.ldq.length + n)) .stall

-- loads

/-- R129: the gate of a load. -/
def loadGate (size : Nat) (d base x : BitVec 5) (b : BitVec 1) (sc : BitVec 5) (o : BitVec 3) (s : State) : Gate :=
  Gate.all [gateIf (o != 0) (scopeGate s sc.toNat), accessGate s (s.eaX base x) size size .read, ldqGate d 1 s,
    gateIf (b == 0 && decide (s.myCore.cycle < s.myCore.l1until)) .stall]

/-- R129: the acquire that an ordered form makes as its value is written (R252: under the entry as it issues). -/
def State.acqOf (s : State) (sc : BitVec 5) (acq : Bool) : Option (Nat × Scope) :=
  if acq then some (sc.toNat, s.scopeNow sc.toNat) else none

/-- R129: issue a load; own scratchpad is read at once, and so is a location with a store of the context still inside
the core, after the older loads of its units (R246). -/
def issueLoad (size : Nat) (signed : Bool) (d base x : BitVec 5) (r : BitVec 2) (b : BitVec 1) (sc : BitVec 5)
    (o : BitVec 3) (s : State) : State :=
  let f := s.frame
  match reach s f.core f.ctx (s.eaX base x) .read with
  | .ok t =>
    let l : Load := { id := 0, dst := 0, target := t, size := size, signed := signed, byp := b == 1, rd := r.toNat,
                      commit := o != 0, acq := s.acqOf sc (o != 0) }
    let s1 := s.returning d l
    if ownSpad f.core t.place then performOwn s1 f.core f.ctx { l with id := s.me.nextLoad }
    else if ownPending s f.core f.ctx t size then
      performLoad (performLoads s1 f.core f.ctx s.me.loads t.place size) f.core f.ctx { l with id := s.me.nextLoad }
    else s1
  | _ => s

/-- A load form. -/
def loadForm (size : Nat) (signed : Bool) (d base x : BitVec 5) (r : BitVec 2) (b : BitVec 1) (sc : BitVec 5)
    (o : BitVec 3) (s : State) : Out :=
  behind (loadGate size d base x b sc o s) s (issueLoad size signed d base x r b sc o)

def execLdb (d base x : BitVec 5) (r : BitVec 2) (b : BitVec 1) (sc : BitVec 5) (o : BitVec 3) (s : State) : Out :=
  loadForm 1 true d base x r b sc o s
def execLdbn (d base x : BitVec 5) (r : BitVec 2) (b : BitVec 1) (sc : BitVec 5) (o : BitVec 3) (s : State) : Out :=
  loadForm 1 false d base x r b sc o s
def execLdh (d base x : BitVec 5) (r : BitVec 2) (b : BitVec 1) (sc : BitVec 5) (o : BitVec 3) (s : State) : Out :=
  loadForm 2 true d base x r b sc o s
def execLdhn (d base x : BitVec 5) (r : BitVec 2) (b : BitVec 1) (sc : BitVec 5) (o : BitVec 3) (s : State) : Out :=
  loadForm 2 false d base x r b sc o s
def execLdw (d base x : BitVec 5) (r : BitVec 2) (b : BitVec 1) (sc : BitVec 5) (o : BitVec 3) (s : State) : Out :=
  loadForm 4 true d base x r b sc o s
def execLdwn (d base x : BitVec 5) (r : BitVec 2) (b : BitVec 1) (sc : BitVec 5) (o : BitVec 3) (s : State) : Out :=
  loadForm 4 false d base x r b sc o s
def execLdd (d base x : BitVec 5) (r : BitVec 2) (b : BitVec 1) (sc : BitVec 5) (o : BitVec 3) (s : State) : Out :=
  loadForm 8 false d base x r b sc o s

-- stores

/-- R130, R279: the gate of a store. A release to the own scratchpad waits before it issues. Of the A-slot forms only these stores are refused
in a retained input range (DESIGN CHOICE, log entry 136). -/
def storeGate (size : Nat) (base x : BitVec 5) (sc : BitVec 5) (o : BitVec 3) (s : State) : Gate :=
  let f := s.frame
  let ea := s.eaX base x
  Gate.all [gateIf (o != 0) (scopeGate s sc.toNat), accessGate s ea size size .write,
    match reach s f.core f.ctx ea .write with
    | .ok t => (gateIf (ltxInput s t.place size) (.trap cProtection)).and
        (gateIf (o != 0 && ownSpad f.core t.place && unacked s f.core f.ctx (s.scopeNow sc.toNat).point) .stall)
    | _ => .go]

/-- R31, R130, R172: issue a store. A release elsewhere than to the own scratchpad takes its entry of the withholding buffer and is
held there until the context's earlier stores are acknowledged at its scope's point. It closes the interval in which it was made (R261). -/
def issueStore (size : Nat) (d base x : BitVec 5) (r : BitVec 2) (sc : BitVec 5) (o : BitVec 3) (s : State) : State :=
  let f := s.frame
  match reach s f.core f.ctx (s.eaX base x) .write with
  | .ok t =>
    let bs := leBytes size (s.srcS d).toNat
    let s1 := performLoads s f.core f.ctx s.me.loads t.place size
    if o = 0 then storeTo s1 f.core f.ctx t bs r.toNat
    else
      let e := s.scopeNow sc.toNat
      let s2 := s1.ordered f.core f.ctx sc.toNat e.gen
      if ownSpad f.core t.place then storeTo s2 f.core f.ctx t bs
      else
        let st : Store := { mkStore (s1.ctx f.core f.ctx) f.core f.ctx t bs with rel := true, rd := r.toNat }
        (s2.modCore f.core (fun k => { k with wbuf := withhold st k.wbuf })).modMe (fun c => { c with relWait := some e.point })
  | _ => s

/-- A store form. -/
def storeForm (size : Nat) (d base x : BitVec 5) (r : BitVec 2) (sc : BitVec 5) (o : BitVec 3) (s : State) : Out :=
  behind (storeGate size base x sc o s) s (issueStore size d base x r sc o)

def execStb (d base x : BitVec 5) (r : BitVec 2) (sc : BitVec 5) (o : BitVec 3) (s : State) : Out :=
  storeForm 1 d base x r sc o s
def execSth (d base x : BitVec 5) (r : BitVec 2) (sc : BitVec 5) (o : BitVec 3) (s : State) : Out :=
  storeForm 2 d base x r sc o s
def execStw (d base x : BitVec 5) (r : BitVec 2) (sc : BitVec 5) (o : BitVec 3) (s : State) : Out :=
  storeForm 4 d base x r sc o s
def execStd (d base x : BitVec 5) (r : BitVec 2) (sc : BitVec 5) (o : BitVec 3) (s : State) : Out :=
  storeForm 8 d base x r sc o s

-- ordering forms

/-- Earlier loads of the context have all written their values. -/
def loadsPending (s : State) : Bool := !s.me.loads.isEmpty

/-- R133: the gate of a fence that waits for earlier loads, and for acknowledgement at a point when it releases. -/
def fenceGate (sc : BitVec 5) (rel : Bool) (s : State) : Gate :=
  let f := s.frame
  Gate.all [scopeGate s sc.toNat, gateIf (loadsPending s) .stall,
    gateIf (rel && unacked s f.core f.ctx (s.scopeNow sc.toNat).point) .stall]

/-- R133, R261: what a fence leaves: an acquire's effects, and an interval closed. -/
def fence (sc : BitVec 5) (acq : Bool) (s : State) : State :=
  let f := s.frame
  let e := s.scopeNow sc.toNat
  if acq then acquire s f.core f.ctx sc.toNat e else s.ordered f.core f.ctx sc.toNat e.gen

def execFenceAcq (sc : BitVec 5) (s : State) : Out := behind (fenceGate sc false s) s (fence sc true)
def execFenceRel (sc : BitVec 5) (s : State) : Out := behind (fenceGate sc true s) s (fence sc false)
def execFenceAr (sc : BitVec 5) (s : State) : Out := behind (fenceGate sc true s) s (fence sc true)

/-- R134: a checkpoint after the bundle. -/
def execQmark (s : State) : Out := .next (s.modMe (fun c => { c with ckOwed := max c.ckOwed 2 }))

-- L1

/-- R151: every line goes, and non-bypass loads stall until it completes. -/
def execL1inv (s : State) : Out :=
  let ck := s.frame.core
  let until_ := s.myCore.cycle + Config.l1invCycles
  .next ((s.l1Cores ck).foldl (fun s k => s.modCore k (fun c => { c with l1until := until_ })) (s.l1Flush ck))

/-- R152, R347: the request of a prefetch for the line of a translated address. -/
def prefetch (s : State) (ck x : Nat) (t : Target) (rd : Nat) (byp : Bool) : State :=
  match t.place with
  | .hbm a =>
    let r := l2Read s (dieOf ck) (lineTarget t) (a / 128 * 128) 128 rd
    let line : Line := { addr := a / 128, data := vregOfBytes r.2, rrpv := rd }
    if !byp && cacheable t && (s.l1Line ck (a / 128)).isNone && !ownPending s ck x (lineTarget t) 128 then
      r.1.modCore (l1Holder s ck (a / 128)) (fun c => { c with l1 := rripFill Config.l1Lines line c.l1 })
    else r.1
  | _ => s

/-- R152: request a line into L1 and L2, or into L2 only, walking where the address is not yet translated; a fault drops the
request, and nothing else happens. -/
def execPref (base x : BitVec 5) (r : BitVec 2) (b : BitVec 1) (s : State) : Out :=
  let f := s.frame
  let ea := s.eaX base x
  if r = 3 then .next s
  else
    match reachUnit s f.core f.ctx ea .read with
    | .ok t => .next (prefetch (tlbUse s f.core f.ctx ea true) f.core f.ctx t r.toNat (b == 1))
    | _ => .next s

-- events

/-- LOAD_RETURN (R126, R129, R246): the load numbered `ev.idx` in the queue performs its read, after older ones of its units, and the
leading loads that have performed write their values. -/
def execLoadReturn (s : State) : Out :=
  let ck := s.ev.core
  let x := s.ev.ctx
  let q := (s.ctx ck x).loads
  match q[s.ev.idx]? with
  | none => .next s
  | some l =>
    let s1 := performLoad (performLoads s ck x (q.take s.ev.idx) l.target.place l.size) ck x l
    .next (settle (deliverAll 17 s1 ck x) ck x)

/-- The first store handed over by a core goes to the die (R32: one entry per cycle, in order). -/
def drainStore (s : State) (ck : Nat) : State :=
  match (s.core ck).hand with
  | [] => s
  | st :: rest => (s.modCore ck (fun c => { c with hand := rest })).modDie (dieOf ck) (fun d => d.takeStore st)

/-- WITHHELD_STORE_DRAIN (R32). -/
def execWithheldStoreDrain (s : State) : Out := .next (drainStore s s.ev.core)

/-- R130: an entry of the withholding buffer holds a release of a context. -/
def Store.releaseOf (x : Nat) (st : Store) : Bool := st.rel && st.ctx == x

/-- R130: the context's release store is handed on, if everything before it is acknowledged. -/
def releaseHandover (s : State) (ck x : Nat) : State :=
  match (s.ctx ck x).relWait with
  | none => s
  | some pt =>
    if unacked s ck x pt then s
    else
      ((s.core ck).wbuf.filter (Store.releaseOf x)).foldl (fun s st => s.handStore ck st)
        ((s.modCtx ck x (fun c => { c with relWait := none })).modCore ck (fun k =>
          { k with wbuf := k.wbuf.filter (fun st => !st.releaseOf x) }))

/-- RELEASE_HANDOVER (R130). -/
def execReleaseHandover (s : State) : Out := .next (releaseHandover s s.ev.core s.ev.ctx)

/-- R262, R263: the sectors of a store's cells. -/
def storeSectors (st : Store) : List Nat := (st.cells.map (fun c => c.1 / 64)).eraseDups

/-- R262, R263: a store on a checked page at its home: the check of each sector, at the first byte it writes there; a race in trap
mode is reported to the context, as its deferred cause. -/
def checkStore (s : State) (st : Store) : State :=
  if st.race = 0 then s
  else (storeSectors st).foldl (fun s sec =>
    let at_ := ((st.cells.filter (fun c => c.1 / 64 == sec)).map (·.1)).foldl min (64 * sec + 63)
    let r := raceCheck s st.core st.ctx at_ st.race (some (shadowOf st))
    if r.2 && st.race = 1 then
      r.1.modCtx st.core st.ctx (fun c => { c with raceReport := true }) else r.1) s

/-- R239, R243, R246, R262: a store performs at its home: other dies' copies of the line are invalidated, and the MSC takes it with
its insertion value. Input ranges of a transaction were refused at issue. -/
def performStore (s : State) (st : Store) : State :=
  match st.place with
  | .hbm a =>
    let s1 := mscTouch (dropShared s [a / 128] (some (dieOf st.core))) (a / 128) st.rd
    (checkStore s1 st).performCells st.place st.cells
  | _ => noteCells (s.performCells st.place st.cells) st.place st.cells

/-- Stores of a slice that share a unit of 8 bytes with a store earlier in the slice wait for it (R246: coherence order). -/
def overlaps (a b : Store) : Bool :=
  a.place.key.1 == b.place.key.1 && a.cells.any (fun c => b.cells.any (fun d => c.1 / 8 == d.1 / 8))

/-- The first store of a slice before position `k` that overlaps the one there, or `k`. -/
def overlapBefore (l : List Store) (k : Nat) : Nat :=
  match l[k]? with
  | none => k
  | some st => min k ((l.take k).findIdx (fun y => overlaps y st))

/-- R245, R246: the store of a slice that performs before the one at position `k`, or that one: no earlier store overlaps it. -/
def oldestOverlap (l : List Store) : Nat → Nat → Nat
  | 0, k => k
  | n + 1, k => let j := overlapBefore l k; if j = k then k else oldestOverlap l n j

/-- STORE_ACKNOWLEDGEMENT (R243, R251): the die takes the store at position `ev.idx` of its slices, or an earlier one in
the same units, and it performs at its home. -/
def execStoreAcknowledgement (s : State) : Out :=
  let dk := s.ev.die
  let l := (s.die dk).slice
  let k := oldestOverlap l s.ev.idx s.ev.idx
  match l[k]? with
  | none => .next s
  | some st => .next (performStore (s.modDie dk (fun d => { d with slice := l.eraseIdx k })) st)

/-- RACE_REPORT (R263): the home's report reaches the context; RACE is raised at its next bundle. -/
def execRaceReport (s : State) : Out :=
  .next (s.modCtx s.ev.core s.ev.ctx (fun c =>
    if c.raceReport then { c with raceReport := false, deferred := if c.deferred = 0 then cRace else c.deferred } else c))

/-- R347: the end of a context's page walk: the translation is cached, or the failure kept for the bundle that waits, or
the walk is held on a migrating leaf. -/
def finishWalk (s : State) (ck x : Nat) : State :=
  let c := s.ctx ck x
  match c.walk with
  | none => s
  | some va =>
    match walk s (pkgOf ck) c.pasid va with
    | .leaf w n e =>
      let t : TlbEntry := { pasid := c.pasid, va := w, size := n, leaf := e }
      ((s.modCtx ck x (fun c => { c with walk := none, migHold := none })).modCore ck (fun k =>
        { k with tlb := tlbFill Config.microTlb t k.tlb })).modDie (dieOf ck) (fun d => d.tlbFill t)
    | .fail => s.modCtx ck x (fun c => { c with walk := none, migHold := none, walkFail := some (va, cTranslation) })
    | .mig => s.modCtx ck x (fun c => { c with migHold := some (va, s.tick + Config.resendTicks) })

/-- R347: a hit in the die TLB ends the wait of a micro-TLB miss without a walk. -/
def dieTlbHit (s : State) (ck x : Nat) : Option State :=
  let c := s.ctx ck x
  match c.walk with
  | none => none
  | some va =>
    match (s.die (dieOf ck)).tlbFind c.pasid va with
    | some t => some ((s.modCtx ck x (fun c => { c with walk := none })).modCore ck (fun k =>
        { k with tlb := tlbFill Config.microTlb t k.tlb }))
    | none => none

/-- PAGE_WALK (R343 to R347): the translation that a context's bundle waits for, or, with `ev.flag`, one that a started command of
its uses at `ev.addr`. -/
def execPageWalk (s : State) : Out :=
  let ck := s.ev.core
  let x := s.ev.ctx
  if s.ev.flag then .next (if enginesBusy (s.ctx ck x) then tlbUse s ck x s.ev.addr false else s)
  else
    match (s.ctx ck x).migHold with
    | some _ => .next s
    | none => .next ((dieTlbHit s ck x).getD (finishWalk s ck x))

/-- MIG_REREAD (R350): a held walk reads the leaf again, every 1 µs; with `ev.flag`, the walk of the device's waiting write
`ev.idx`. -/
def execMigReread (s : State) : Out :=
  if s.ev.flag then .next (devRetry s s.ev.idx)
  else match (s.ctx s.ev.core s.ev.ctx).migHold with
  | some (_, t) => if s.tick < t then .next s else .next (finishWalk s s.ev.core s.ev.ctx)
  | none => .next s

/-- L1INV_COMPLETE (R151). -/
def execL1invComplete (s : State) : Out :=
  .next (s.modCore s.ev.core (fun c => if c.l1until ≤ c.cycle then { c with l1until := 0 } else c))

end Sys2Proof.Machine
end

