-- ==== Sys2Proof/Machine/Atomic.lean ====
section
/-!
DEFINITION. The scratchpad atomic unit with its full/empty words (R135, R136, R174), atomics and reductions (R137 to R140,
R255, R256), tickets (R141, R142) and barriers (R143, R225, R226).
-/

namespace Sys2Proof.Machine

-- operations

/-- Codes of Table 5.4, in its order. -/
def opAdd : Nat := 0
def opAnd : Nat := 1
def opOr : Nat := 2
def opXor : Nat := 3
def opMin : Nat := 4
def opMax : Nat := 5
def opMinn : Nat := 6
def opMaxn : Nat := 7
def opSwap : Nat := 8
def opCas : Nat := 9
def opFadd : Nat := 10
def opFmin : Nat := 11
def opFmax : Nat := 12

/-- Table 5.4: the new value of a location of `size` bytes; `cmp` is the compare value of cas. -/
def atomNew (op size old v cmp : Nat) : Nat :=
  let m := 2 ^ (8 * size)
  let a := old % m
  let b := v % m
  if op = opAdd then (a + b) % m
  else if op = opAnd then Nat.land a b
  else if op = opOr then Nat.lor a b
  else if op = opXor then Nat.xor a b
  else if op = opMin then (if signedOf (8 * size) a ≤ signedOf (8 * size) b then a else b)
  else if op = opMax then (if signedOf (8 * size) a ≤ signedOf (8 * size) b then b else a)
  else if op = opMinn then min a b
  else if op = opMaxn then max a b
  else if op = opSwap then b
  else if op = opCas then (if a = cmp % m then b else a)
  else if op = opFadd then addF 0 a b
  else if op = opFmin then minmaxF false a b
  else minmaxF true a b

-- the scratchpad atomic unit

/-- Words of a core's scratchpad, by physical word number. -/
def Core.word (c : Core) (w : Nat) : Nat := Mem.nat c.spad (4 * w) 4
def Core.isFull (c : Core) (w : Nat) : Bool := c.full.contains w
def Core.setWord (c : Core) (w v : Nat) : Core :=
  { c with spad := Mem.put c.spad (4 * w) (leBytes 4 v), spadUE := c.spadUE.filter (· != w), spadOld := keepOld c.spadOld (4 * w) 4 }
def Core.setFull (c : Core) (w : Nat) (b : Bool) : Core :=
  { c with full := if b then addOnce w c.full else c.full.filter (· != w) }

/-- Table 5.3, R137, R174, R175: one operation at the unit and the word it answers; nothing while its condition does not
hold. A `cas` that fails writes nothing. -/
def unitStep (c : Core) : UnitOp → Option (Core × Word)
  | .ldfull w => if c.isFull w then some (c, BitVec.ofNat 64 (c.word w)) else none
  | .ldtake w => if c.isFull w then some (c.setFull w false, BitVec.ofNat 64 (c.word w)) else none
  | .stfill w v => if c.isFull w then none else some ((c.setWord w v.toNat).setFull w true, 0)
  | .stforce w v => some ((c.setWord w v.toNat).setFull w true, 0)
  | .fetag w => some (c, if c.isFull w then 1 else 0)
  | .feset w b => some (c.setFull w b, 0)
  | .rmw off size op v cmp =>
    let old := Mem.nat c.spad off size
    let new := atomNew op size old v.toNat cmp.toNat
    if op = opCas ∧ old ≠ cmp.toNat % 2 ^ (8 * size) then some (c, BitVec.ofNat 64 old)
    else
      some ({ c with spad := Mem.put c.spad off (leBytes size new)
                     spadUE := c.spadUE.filter (fun w => w < off / 4 || (off + size - 1) / 4 < w)
                     spadOld := keepOld c.spadOld off size },
            BitVec.ofNat 64 old)

/-- R174 step 2: a sequence, each step seeing what the step before it left. -/
def unitRun (c : Core) : List UnitOp → Option (Core × List Word)
  | [] => some (c, [])
  | o :: t =>
    match unitStep c o with
    | none => none
    | some (c1, w) =>
      match unitRun c1 t with
      | none => none
      | some (c2, ws) => some (c2, w :: ws)

/-- Words that an operation names. -/
def opWords : UnitOp → List Nat
  | .ldfull w => [w]
  | .ldtake w => [w]
  | .stfill w _ => [w]
  | .stforce w _ => [w]
  | .fetag w => [w]
  | .feset w _ => [w]
  | .rmw off size _ _ _ => if size = 8 then [off / 4, off / 4 + 1] else [off / 4]

/-- R136, R174: a request can be served beside those before it, whose words are `waiting`, and `claimed` where they come first
themselves: its sequence is satisfiable, and a joint request of the groups names no word of an earlier one. -/
def mayServe (c : Core) (waiting claimed : List Nat) (joint : Bool) (ops : List UnitOp) : Bool :=
  (unitRun c ops).isSome &&
  (ops.flatMap opWords).all (fun w => !claimed.contains w && !(joint && waiting.contains w))

/-- Words of waiting requests, and of those among them that are served before any later one. -/
def queueWords (c : Core) (q : List UnitReq) : List Nat × List Nat :=
  q.foldl (fun p r =>
    let ws := r.ops.flatMap opWords
    (p.1 ++ ws, if mayServe c p.1 p.2 r.joint r.ops then p.2 ++ ws else p.2)) ([], [])

/-- R136, R174: a request that arrived after those of `earlier` can be served. -/
def canServe (c : Core) (earlier : List UnitReq) (joint : Bool) (ops : List UnitOp) : Bool :=
  let p := queueWords c earlier
  mayServe c p.1 p.2 joint ops

/-- Requests of a unit that arrived before a context's own. -/
def earlierThan (q : List UnitReq) (ck x : Nat) : List UnitReq := q.takeWhile (fun r => !(r.core == ck && r.ctx == x))

/-- R131: the first word that a request reads is marked uncorrectable. -/
def opsMarked (c : Core) (ops : List UnitOp) : Bool :=
  match ops with
  | [] => false
  | o :: _ => (opWords o).any (fun w => c.spadUE.contains w)

/-- R172: the bytes of a context's own scratchpad that the service of its request changed, with what stood there before. -/
def changedBytes (x : Nat) (c c' : Core) (ops : List UnitOp) : List (Nat × Nat × Byte) :=
  (((ops.flatMap opWords).eraseDups.flatMap (fun w => (List.range 4).map (4 * w + ·))).filter (fun a =>
    Mem.rd c.spad a != Mem.rd c'.spad a)).map (fun a => (x, a, Mem.rd c.spad a))

/-- R136, R172, R174: the unit of a core serves operations of a context: what the context keeps of the answer. -/
def keepAnswer (s : State) (owner : Nat) (c' : Core) (ck x : Nat) (ops : List UnitOp) (ws : List Word) : State :=
  let c := s.core owner
  let old := if owner = ck then changedBytes x c c' ops else []
  (s.setCore owner { c' with spadOld := c'.spadOld.filter (fun p => p.1 != x || owner != ck) ++ old }).modCtx ck x (fun k =>
    { k with served := some ws, servedUE := opsMarked c ops, status := .ready })

/-- R136, R174: the unit of a core serves the request at a position of its queue; nothing where it cannot be served. -/
def serveAt (s : State) (ck i : Nat) : Option State :=
  let c := s.core ck
  match c.unitQ[i]? with
  | none => none
  | some r =>
    if !canServe c (c.unitQ.take i) r.joint r.ops then none
    else
      match unitRun c r.ops with
      | none => none
      | some (c', ws) => some (keepAnswer s ck { c' with unitQ := c'.unitQ.eraseIdx i } r.core r.ctx r.ops ws)

/-- R136: the unit of a core serves waiting requests, in arrival order, as far as it can: they come before one that arrives now. -/
def serveReady : Nat → State → Nat → State
  | 0, s, _ => s
  | n + 1, s, ck =>
    match (List.range (s.core ck).unitQ.length).findSome? (serveAt s ck) with
    | some t => serveReady n t ck
    | none => s

/-- R136: every waiting request that can be served has been. -/
def unitArrives (s : State) (owner : Nat) : State := serveReady (s.core owner).unitQ.length s owner

/-- R136, R174: the gate of a request of the bundle at a core's unit. -/
def unitGate (owner : Nat) (ops : List UnitOp) (s : State) : Gate :=
  let f := s.frame
  let c := s.core owner
  gateIf (s.me.served.isNone && !canServe c (earlierThan c.unitQ f.core f.ctx) f.joint ops) (.block .fullEmpty)

/-- R136: a blocked request enters the unit's arrival order, once. -/
def enqueueUnit (owner : Nat) (r : UnitReq) (s : State) : State :=
  s.modCore owner (fun c =>
    if c.unitQ.any (fun q => q.core == r.core && q.ctx == r.ctx) then c else { c with unitQ := c.unitQ ++ [r] })

/-- What a unit has already answered to the bundle's request; a joint request is one at the own core's unit. -/
def servedAt (owner : Nat) (s : State) : Option (List Word) :=
  if s.frame.joint && owner != s.frame.core then none else s.me.served

/-- Perform operations of the bundle at a unit: those already served answer from what the unit kept. -/
def unitGo (owner : Nat) (ops : List UnitOp) (s : State) : State × List Word :=
  match servedAt owner s with
  | some ws => (s.modMe (fun c => { c with served := some (ws.drop ops.length) }), ws.take ops.length)
  | none =>
    match unitRun (s.core owner) ops with
    | some (c, ws) =>
      let s1 := s.setCore owner c
      (s1.modCore owner (fun c => { c with unitQ := c.unitQ.filter (fun q => !(q.core == s.frame.core && q.ctx == s.frame.ctx)) }), ws)
    | none => (s, ops.map (fun _ => 0))

/-- The core's handed-over stores go to the die. -/
def drainAll : Nat → State → Nat → State
  | 0, s, _ => s
  | n + 1, s, ck => if (s.core ck).hand.isEmpty then s else drainAll n (drainStore s ck) ck

/-- R246: of stores of a slice, those that have to perform before what `hits` names can be read, and the others: a store goes
before each later one in its units. -/
def mustPerform (hits : Store → Bool) : List Store → List Store × List Store
  | [] => ([], [])
  | st :: t =>
    let r := mustPerform hits t
    if hits st || r.1.any (overlaps st) then (st :: r.1, r.2) else (r.1, st :: r.2)

/-- R246: slice entries in the units of bytes perform at their home, in order, behind those that come before them. -/
def performSlice (s : State) (dk : Nat) (p : Place) (n : Nat) : State :=
  let k := p.key
  let hits (st : Store) := st.place.key.1 == k.1 && st.cells.any (fun c => sameUnit k.2 n c.1 1)
  let r := mustPerform hits (s.die dk).slice
  r.1.foldl performStore (s.modDie dk (fun d => { d with slice := r.2 }))

/-- R245, R246: what must perform at the home before an atomic of a context there. -/
def settleStores (s : State) (ck : Nat) (p : Place) (n : Nat) : State :=
  let s1 := drainAll ((s.core ck).hand.length) s ck
  performSlice s1 (dieOf ck) p n

/-- R245, R246: what must perform at the unit of a core before a request of another core's context there. -/
def settleUnit (s : State) (ck owner off n : Nat) : State :=
  if owner = ck then s else settleStores s ck (.spad owner off) n

/-- R245: a store of the context that waits behind an output entry covers a byte at a place. -/
def behindEntry (s : State) (p : Place) (n : Nat) : Bool := storesHit (s.me.released.filterMap Released.store?) p n

/-- A blocking request behind its gate: a block also enters the unit's queue, behind the context's own stores to its words. -/
def behindUnit (owner : Nat) (ops : List UnitOp) (g : Gate) (s : State) (go : State → State) : Out :=
  match g with
  | .block w =>
    let f := s.frame
    let t := (ops.flatMap opWords).foldl (fun t n => settleUnit t f.core owner (4 * n) 4) s
    .next (enqueueUnit owner { core := f.core, ctx := f.ctx, ops := ops } (t.blockFrame w))
  | g => behind g s go

-- targets

/-- The target of a translated address of the bundle. -/
def State.targetOf (s : State) (ea : Nat) (a : Access) : Option Target :=
  match reach s s.frame.core s.frame.ctx ea a with
  | .ok t => some t
  | _ => none

/-- R136, R237: the scratchpad a target lies in: owner and offset. -/
def spadOf (t : Option Target) : Option (Nat × Nat) :=
  match t with
  | some g => match g.place with | .spad c o => some (c, o) | _ => none
  | none => none

/-- R135: the gate of a full/empty form without its wait. -/
def feGate (ea : Nat) (sc : BitVec 5) (o : BitVec 3) (blocking returning : Bool) (d : BitVec 5) (s : State) : Gate :=
  let f := s.frame
  Gate.all [gateIf (o != 0) (scopeGate s sc.toNat), accessGate s ea 4 4 .both,
    match s.targetOf ea .both with
    | some t =>
      (match t.place with
       | .spad c _ => (gateIf (blocking && f.joint && c != f.core) (.trap cAtomic)).and (gateIf (behindEntry s t.place 4) .stall)
       | _ => .trap cAtomic)
    | none => .go,
    gateIf returning (ldqGate d 1 s),
    gateIf (o == 2 && unacked s f.core f.ctx (s.scopeNow sc.toNat).point) .stall]

/-- The word a full/empty form acts on: owner and physical word. -/
def feWord (ea : Nat) (s : State) : Nat × Nat :=
  match spadOf (s.targetOf ea .both) with
  | some (c, o) => (c, o / 4)
  | none => (s.frame.core, 0)

/-- The release that an executed form with rel or ar is (R128, R261). -/
def releaseBy (sc : BitVec 5) (o : BitVec 3) (s : State) : State :=
  if o = 2 ∨ o = 3 then s.ordered s.frame.core s.frame.ctx sc.toNat (s.scopeNow sc.toNat).gen else s

/-- The acquire that a form without a value is, as it passes. -/
def acquireBy (sc : BitVec 5) (o : BitVec 3) (s : State) : State :=
  if o = 1 then acquire s s.frame.core s.frame.ctx sc.toNat (s.scopeNow sc.toNat) else s

/-- R129, R139: the acquire that a returning form with acq or ar makes as its value is written. -/
def acqBy (sc : BitVec 5) (o : BitVec 3) (s : State) : Option (Nat × Scope) := s.acqOf sc (o == 1 || o == 3)

/-- A value that a committing form already has, on its way to its destination (R126, R128). -/
def returnNow (d : BitVec 5) (t : Target) (size : Nat) (v : Word) (ue : Bool) (acq : Option (Nat × Scope)) (s : State) :
    State :=
  s.returning d { id := 0, dst := 0, target := t, size := size, commit := true, data := some v, ue := ue, acq := acq }

/-- R136, R245, R246: a request of the bundle that the unit has not answered yet arrives there: the context's own earlier stores to
its bytes are performed, and what waits at the unit and can be served comes first. -/
def atUnit (ck owner off n : Nat) (s : State) : State :=
  if (servedAt owner s).isSome then s else unitArrives (settleUnit s ck owner off n) owner

/-- R288: a full/empty store may have written a ready flag. -/
def noteUnit (o : UnitOp) (core : Nat) (s : State) : State :=
  match o with
  | .stfill w _ => noteCommitted s core w
  | .stforce w _ => noteCommitted s core w
  | _ => s

/-- R135, R136, R246: a full/empty form performs, behind the context's own stores to the word and the requests that came first. -/
def fePerform (d : BitVec 5) (ea : Nat) (op : Nat → UnitOp) (returning : Bool) (sc : BitVec 5) (o : BitVec 3)
    (s : State) : State :=
  let w := feWord ea s
  let t : Target := { place := .spad w.1 (4 * w.2) }
  let bad := if (servedAt w.1 s).isSome then s.me.servedUE else s.marked t.place 4
  let s0 := atUnit s.frame.core w.1 (4 * w.2) 4 (performAllLoads s s.frame.core s.frame.ctx)
  let r := unitGo w.1 [op w.2] s0
  let s1 := releaseBy sc o (noteUnit (op w.2) w.1 r.1)
  if returning then returnNow d t 4 (r.2.headD 0) bad (acqBy sc o s) s1 else s1

/-- A full/empty form: its gate, its wait and its effect. -/
def feForm (blocking returning : Bool) (op : Nat → UnitOp) (d b x sc : BitVec 5) (o : BitVec 3) (s : State) : Out :=
  let ea := s.eaX b x
  let w := feWord ea s
  behindUnit w.1 [op w.2]
    ((feGate ea sc o blocking returning d s).and
      (gateIf (blocking && !s.frame.joint) (unitGate w.1 [op w.2] s))) s
    (fePerform d ea op returning sc o)

/-- The data word of a full/empty store. -/
def State.srcW (s : State) (d : BitVec 5) : BitVec 32 := (s.srcS d).setWidth 32

def execLdfull (d b x sc : BitVec 5) (o : BitVec 3) (s : State) : Out := feForm true true .ldfull d b x sc o s
def execLdtake (d b x sc : BitVec 5) (o : BitVec 3) (s : State) : Out := feForm true true .ldtake d b x sc o s
def execStfill (d b x sc : BitVec 5) (o : BitVec 3) (s : State) : Out :=
  feForm true false (fun w => .stfill w (s.srcW d)) d b x sc o s
def execStforce (d b x sc : BitVec 5) (o : BitVec 3) (s : State) : Out :=
  feForm false false (fun w => .stforce w (s.srcW d)) d b x sc o s
def execFetag (d b x : BitVec 5) (s : State) : Out := feForm false true .fetag d b x 0 0 s
def execFeset (d b x : BitVec 5) (s : State) : Out :=
  feForm false false (fun w => .feset w ((s.srcS d).getLsbD 0)) d b x 0 0 s

/-- FULL_EMPTY_SERVICE (R136, R174): the unit serves the request at position `ev.idx` of its queue, if it can be served;
its context goes on with what the unit answered. -/
def execFullEmptyService (s : State) : Out := .next ((serveAt s s.ev.core s.ev.idx).getD s)

-- atomics

/-- Where an atomic executes (Table 9.6). -/
inductive AtomPlace where
  | unit (core off : Nat)
  | switch (window off : Nat)
  | slice (fa : Nat)
  | home (fa : Nat)
  | host (p : Place)
  deriving DecidableEq, Repr

/-- The core whose unit a place is, if it is one. -/
def AtomPlace.owner : AtomPlace → Nat
  | .unit c _ => c
  | _ => 0

/-- R255: the executing place of a target under a visibility point. -/
def atomPlace (s : State) (ck point : Nat) (p : Place) : AtomPlace :=
  match p with
  | .spad c o => .unit c o
  | .host k q a => .host (.host k q a)
  | .hbm fa =>
    match windowAt fa s.windows with
    | some (w, off) => .switch w.id off
    | none => if fa / 2 ^ 52 = pkgOf ck ∧ point ≤ 1 then .slice fa else .home fa

/-- The window's OPR code of an operation it can merge (Table 10.7). -/
def oprOf (op : Nat) : Option Nat :=
  if op = opAdd ∨ op = opFadd then some 0 else if op = opMin ∨ op = opFmin then some 1
  else if op = opMax ∨ op = opFmax then some 2 else if op = opMinn then some 3 else if op = opMaxn then some 4 else none

/-- An operation of Table 5.4 on floats. -/
def isFloatOp (op : Nat) : Bool := op == opFadd || op == opFmin || op == opFmax

def findWindow (id : Nat) : List Window → Option Window
  | [] => none
  | w :: t => if w.id = id then some w else findWindow id t

/-- R290, R291: a contribution reaches a window: it waits for its round, or, for a round that its member has missed, takes no
part. -/
def Window.contribute (w : Window) (c : Contrib) : Window :=
  let m := (c.kind, c.elem, c.rank)
  if w.missed.contains m then { w with missed := w.missed.erase m } else { w with contribs := w.contribs ++ [c] }

/-- R226, R289: the number of a context among the members of a group. -/
def memberKey (ck x : Nat) : Nat := 4 * ck + x

/-- R289: the cause of a `red` at a window, if any. -/
def switchCause (w : Window) (ck x op size : Nat) (returning : Bool) : Option Nat :=
  if returning || w.fmt != w.rfmt || oprOf op != some w.opr || isFloatOp op != isFloatFormat w.fmt ||
      size * 8 != formatBits w.fmt then some cAtomic
  else if !w.members.contains (memberKey ck x) then some cProtection
  else none

/-- R140, Table 5.5: the cause of an operation that its place does not perform. -/
def placeCause (s : State) (ck x : Nat) (pl : AtomPlace) (op size : Nat) (returning : Bool) : Option Nat :=
  match pl with
  | .unit _ _ => if size = 16 then some cAtomic else none
  | .slice _ => none
  | .home _ => none
  | .switch w _ =>
    match findWindow w s.windows with
    | some win => switchCause win ck x op size returning
    | none => none
  | .host _ =>
    if op = opAdd ∨ op = opSwap ∨ op = opCas then none else some cAtomic

/-- R239, R243: an atomic at the home writes: every L2 copy of its line is invalidated. -/
def State.homeWrite (s : State) (p : Place) (bs : List Byte) : State :=
  match p with
  | .hbm a => (mscTouch (dropShared s [a / 128] none) (a / 128) 0).perform p bs
  | _ => s.perform p bs

/-- R136, R245, R246: what comes before an operation at its place: the core's own stores to its bytes, and at a unit the requests
that wait there and can be served. -/
def settlePlace (s : State) (ck : Nat) (pl : AtomPlace) (p : Place) (size : Nat) : State :=
  match pl with
  | .unit c off => unitArrives (settleUnit s ck c off size) c
  | .slice _ => drainAll ((s.core ck).hand.length) s ck
  | .switch _ _ => s
  | .home _ => settleStores s ck p size
  | .host q => settleStores s ck q size

/-- R137, R256: an atomic performs at its settled place: the state and the old value. -/
def atomDo (s : State) (ck x : Nat) (t : Target) (pl : AtomPlace) (op size v cmp : Nat) : State × Nat :=
  let fresh (old : Nat) := atomNew op size old v cmp
  let keeps (old : Nat) : Bool := op = opCas && old != cmp % 2 ^ (8 * size)
  match pl with
  | .unit c off =>
    (match unitStep (s.core c) (.rmw off size op (BitVec.ofNat 64 v) (BitVec.ofNat 64 cmp)) with
     | some (k, w) => (s.setCore c k, w.toNat)
     | none => (s, 0))
  | .slice _ =>
    let old := leNat (s.dieView (dieOf ck) t.place size)
    let st : Store := { mkStore (s.ctx ck x) ck x t (leBytes size (fresh old)) with race := 0, atomic := true }
    if keeps old then (s, old) else (s.modDie (dieOf ck) (fun d => d.takeStore st), old)
  | .switch w off =>
    ({ s with windows := s.windows.map (fun y =>
        if y.id = w then y.contribute { kind := 0, elem := off / size, rank := y.members.idxOf (memberKey ck x)
                                        val := BitVec.ofNat 1024 v, cmd := none, laddr := 0, since := s.tick }
        else y) }, 0)
  | .home _ =>
    let old := leNat (s.readPlace t.place size)
    if keeps old then (s, old) else (s.homeWrite t.place (leBytes size (fresh old)), old)
  | .host p =>
    let old := leNat (s.readPlace p size)
    if keeps old then (s, old) else (s.perform p (leBytes size (fresh old)), old)

/-- R137, R256: an atomic performs at its place, once that is settled: the state and the old value. -/
def atomAt (s : State) (ck x : Nat) (t : Target) (pl : AtomPlace) (op size v cmp : Nat) : State × Nat :=
  atomDo (settlePlace s ck pl t.place size) ck x t pl op size v cmp

/-- R74: bytes of a size code. -/
def sizeOf_ (z : BitVec 3) : Nat := if z = 1 then 8 else if z = 2 then 16 else 4

/-- R139, R140, R289: the gate of an atomic, reduction or ticket form. A `red` that waits for its release has been checked
against its window already. -/
def atomGate (ea op size : Nat) (sc : BitVec 5) (o : BitVec 3) (returning : Bool) (s : State) : Gate :=
  let f := s.frame
  let e := s.scopeNow sc.toNat
  Gate.all [scopeGate s sc.toNat, accessGate s ea size size .both,
    match s.targetOf ea .both with
    | some t =>
      (match s.me.redAt, placeCause s f.core f.ctx (atomPlace s f.core e.point t.place) op size returning with
       | none, some c => .trap c
       | _, _ => gateIf (behindEntry s t.place size) .stall)
    | none => .go,
    gateIf ((o == 2 || o == 3) && unacked s f.core f.ctx e.point) .stall]

/-- R137: perform at the place; the old value. -/
def atomPerform (ea op size v cmp : Nat) (sc : BitVec 5) (s : State) : State × Nat × Target × Bool :=
  let f := s.frame
  match s.targetOf ea .both with
  | none => (s, 0, { place := .hbm 0 }, false)
  | some t =>
    let s0 := performAllLoads s f.core f.ctx
    let bad := s0.marked t.place size
    let pl := atomPlace s0 f.core (s.scopeNow sc.toNat).point t.place
    match pl, servedAt pl.owner s0 with
    | .unit c off, some _ =>
      let r := unitGo c [.rmw off size op (BitVec.ofNat 64 v) (BitVec.ofNat 64 cmp)] s0
      (r.1, (r.2.headD 0).toNat, t, s0.me.servedUE)
    | _, _ =>
      let r := atomAt s0 f.core f.ctx t pl op size v cmp
      (r.1, r.2, t, bad)

/-- R137: an `atom` form other than cas. -/
def atomForm (op : Nat) (d b x : BitVec 5) (z : BitVec 3) (sc : BitVec 5) (o : BitVec 3) (s : State) : Out :=
  let ea := s.ea b
  let size := sizeOf_ z
  behind ((atomGate ea op size sc o true s).and (ldqGate d 1 s)) s (fun s =>
    let r := atomPerform ea op size (s.srcS x).toNat 0 sc s
    returnNow d r.2.2.1 size (BitVec.ofNat 64 r.2.1) r.2.2.2 (acqBy sc o s) (releaseBy sc o r.1))

/-- R289: a `red` that has to wait for its release keeps the window it was checked against. -/
def heldRed (ea : Nat) (sc : BitVec 5) (s : State) : State :=
  match (s.targetOf ea .both).map (fun t => atomPlace s s.frame.core (s.scopeNow sc.toNat).point t.place) with
  | some (.switch w _) => s.modMe (fun c => { c with redAt := c.redAt.orElse (fun _ => some (w + 1)) })
  | _ => s

/-- R137, R289: a `red` form. A contribution whose window has been released while it waited is discarded. -/
def redForm (op : Nat) (b x : BitVec 5) (z : BitVec 3) (sc : BitVec 5) (o : BitVec 3) (s : State) : Out :=
  let ea := s.ea b
  let size := sizeOf_ z
  let g := atomGate ea op size sc o false s
  if g = .stall then .next (heldRed ea sc s).stallFrame
  else behind g s (fun s =>
    let s1 := s.modMe (fun c => { c with redAt := none })
    releaseBy sc o (if s.me.redAt = some 0 then s1 else (atomPerform ea op size (s.srcS x).toNat 0 sc s1).1))

def execAtomAdd (d b x : BitVec 5) (z : BitVec 3) (sc : BitVec 5) (o : BitVec 3) (s : State) : Out :=
  atomForm opAdd d b x z sc o s
def execAtomAnd (d b x : BitVec 5) (z : BitVec 3) (sc : BitVec 5) (o : BitVec 3) (s : State) : Out :=
  atomForm opAnd d b x z sc o s
def execAtomOr (d b x : BitVec 5) (z : BitVec 3) (sc : BitVec 5) (o : BitVec 3) (s : State) : Out :=
  atomForm opOr d b x z sc o s
def execAtomXor (d b x : BitVec 5) (z : BitVec 3) (sc : BitVec 5) (o : BitVec 3) (s : State) : Out :=
  atomForm opXor d b x z sc o s
def execAtomMin (d b x : BitVec 5) (z : BitVec 3) (sc : BitVec 5) (o : BitVec 3) (s : State) : Out :=
  atomForm opMin d b x z sc o s
def execAtomMax (d b x : BitVec 5) (z : BitVec 3) (sc : BitVec 5) (o : BitVec 3) (s : State) : Out :=
  atomForm opMax d b x z sc o s
def execAtomMinn (d b x : BitVec 5) (z : BitVec 3) (sc : BitVec 5) (o : BitVec 3) (s : State) : Out :=
  atomForm opMinn d b x z sc o s
def execAtomMaxn (d b x : BitVec 5) (z : BitVec 3) (sc : BitVec 5) (o : BitVec 3) (s : State) : Out :=
  atomForm opMaxn d b x z sc o s
def execAtomSwap (d b x : BitVec 5) (z : BitVec 3) (sc : BitVec 5) (o : BitVec 3) (s : State) : Out :=
  atomForm opSwap d b x z sc o s
def execAtomFadd (d b x sc : BitVec 5) (o : BitVec 3) (s : State) : Out := atomForm opFadd d b x 0 sc o s
def execAtomFmin (d b x sc : BitVec 5) (o : BitVec 3) (s : State) : Out := atomForm opFmin d b x 0 sc o s
def execAtomFmax (d b x sc : BitVec 5) (o : BitVec 3) (s : State) : Out := atomForm opFmax d b x 0 sc o s

/-- R138: compare and new value of `atom.cas` from consecutive registers. -/
def casCmp (x : BitVec 5) (z : BitVec 3) (s : State) : Nat :=
  if z = 2 then (s.srcS x).toNat + (s.srcS (x + 1)).toNat * 2 ^ 64 else (s.srcS x).toNat
def casNew (x : BitVec 5) (z : BitVec 3) (s : State) : Nat :=
  if z = 2 then (s.srcS (x + 2)).toNat + (s.srcS (x + 3)).toNat * 2 ^ 64 else (s.srcS (x + 1)).toNat

/-- R138: the return of 64 bits, or of two halves, low first. -/
def casReturn (d : BitVec 5) (z : BitVec 3) (t : Target) (old : Nat) (ue : Bool) (acq : Option (Nat × Scope)) (s : State) :
    State :=
  if z = 2 then
    let s1 := returnNow d t 8 (BitVec.ofNat 64 (old % 2 ^ 64)) ue none s
    returnNow (if d = 0 then 0 else d + 1) t 8 (BitVec.ofNat 64 (old / 2 ^ 64)) ue acq s1
  else returnNow d t (sizeOf_ z) (BitVec.ofNat 64 old) ue acq s

def execAtomCas (d b x : BitVec 5) (z : BitVec 3) (sc : BitVec 5) (o : BitVec 3) (s : State) : Out :=
  let ea := s.ea b
  let size := sizeOf_ z
  behind ((atomGate ea opCas size sc o true s).and (ldqGate d (if z = 2 then 2 else 1) s)) s (fun s =>
    let r := atomPerform ea opCas size (casNew x z s) (casCmp x z s) sc s
    casReturn d z r.2.2.1 r.2.1 r.2.2.2 (acqBy sc o s) (releaseBy sc o r.1))

def execRedAdd (b x : BitVec 5) (z : BitVec 3) (sc : BitVec 5) (o : BitVec 3) (s : State) : Out := redForm opAdd b x z sc o s
def execRedAnd (b x : BitVec 5) (z : BitVec 3) (sc : BitVec 5) (o : BitVec 3) (s : State) : Out := redForm opAnd b x z sc o s
def execRedOr (b x : BitVec 5) (z : BitVec 3) (sc : BitVec 5) (o : BitVec 3) (s : State) : Out := redForm opOr b x z sc o s
def execRedXor (b x : BitVec 5) (z : BitVec 3) (sc : BitVec 5) (o : BitVec 3) (s : State) : Out := redForm opXor b x z sc o s
def execRedMin (b x : BitVec 5) (z : BitVec 3) (sc : BitVec 5) (o : BitVec 3) (s : State) : Out := redForm opMin b x z sc o s
def execRedMax (b x : BitVec 5) (z : BitVec 3) (sc : BitVec 5) (o : BitVec 3) (s : State) : Out := redForm opMax b x z sc o s
def execRedMinn (b x : BitVec 5) (z : BitVec 3) (sc : BitVec 5) (o : BitVec 3) (s : State) : Out := redForm opMinn b x z sc o s
def execRedMaxn (b x : BitVec 5) (z : BitVec 3) (sc : BitVec 5) (o : BitVec 3) (s : State) : Out := redForm opMaxn b x z sc o s
def execRedFadd (b x sc : BitVec 5) (o : BitVec 3) (s : State) : Out := redForm opFadd b x 0 sc o s
def execRedFmin (b x sc : BitVec 5) (o : BitVec 3) (s : State) : Out := redForm opFmin b x 0 sc o s
def execRedFmax (b x sc : BitVec 5) (o : BitVec 3) (s : State) : Out := redForm opFmax b x 0 sc o s

-- tickets

/-- R141: a dispenser in host memory or in a window is refused. -/
def tktCause (pl : AtomPlace) : Option Nat :=
  match pl with
  | .host _ => some cAtomic
  | .switch _ _ => some cAtomic
  | _ => none

/-- R141: the gate of a ticket form without its wait. -/
def tktGate (ea : Nat) (sc : BitVec 5) (o : BitVec 3) (s : State) : Gate :=
  let f := s.frame
  let e := s.scopeNow sc.toNat
  Gate.all [scopeGate s sc.toNat, accessGate s ea 8 8 .both,
    match s.targetOf ea .both with
    | some t =>
      (match tktCause (atomPlace s f.core e.point t.place) with
       | some c => .trap c
       | none => gateIf (behindEntry s t.place 8) .stall)
    | none => .go,
    gateIf (o == 2 && unacked s f.core f.ctx e.point) .stall]

/-- The bytes of a location as its executing place holds them. -/
def placeWord (s : State) (ck : Nat) (pl : AtomPlace) (p : Place) (n : Nat) : Nat :=
  match pl with
  | .slice _ => leNat (s.dieView (dieOf ck) p n)
  | _ => leNat (s.readPlace p n)

/-- Where a waiter is recorded: 0 unit, 1 slice, 2 home. -/
def placeKind (pl : AtomPlace) : Nat :=
  match pl with
  | .unit _ _ => 0
  | .slice _ => 1
  | _ => 2

/-- R141: SERVING has reached a ticket. -/
def ticketPassed (word ticket : Nat) : Bool := (word / 2 ^ 32 % 2 ^ 32 + 2 ^ 32 - ticket % 2 ^ 32) % 2 ^ 32 < 2 ^ 31

/-- R141: `tkt.take`: NEXT goes up, its old value returns. -/
def execTktTake (d b sc : BitVec 5) (o : BitVec 3) (s : State) : Out :=
  let ea := s.ea b
  behind ((tktGate ea sc o s).and (ldqGate d 1 s)) s (fun s =>
    let f := s.frame
    match s.targetOf ea .both with
    | none => s
    | some t =>
      let s0 := performAllLoads s f.core f.ctx
      let pl := atomPlace s0 f.core (s.scopeNow sc.toNat).point t.place
      let bad := s0.marked t.place 8
      let s1 := settlePlace s0 f.core pl t.place 8
      let old := placeWord s1 f.core pl t.place 8
      let new := old / 2 ^ 32 * 2 ^ 32 + (old % 2 ^ 32 + 1) % 2 ^ 32
      let r := atomDo s1 f.core f.ctx t pl opSwap 8 new 0
      returnNow d t 8 (BitVec.ofNat 64 (r.2 % 2 ^ 32)) bad (acqBy sc o s) r.1)

/-- R142: a serve answers the recorded waiters of the dispenser that are satisfied and whose core its scope names. -/
def wakeWaiters (s : State) (p : Place) (kind word : Nat) (e : Scope) : State :=
  let hit (w : Waiter) := w.place == p && w.kind == kind && ticketPassed word w.ticket.toNat && isMember e w.core w.ctx
  let s1 := { s with waiters := s.waiters.filter (fun w => !hit w) }
  (s.waiters.filter hit).foldl
    (fun s w => s.modCtx w.core w.ctx (fun c => { c with granted := true, status := .ready })) s1

/-- R141: `tkt.serve`: SERVING goes up and satisfied waiters wake. -/
def execTktServe (b sc : BitVec 5) (o : BitVec 3) (s : State) : Out :=
  let ea := s.ea b
  behind (tktGate ea sc o s) s (fun s =>
    let f := s.frame
    match s.targetOf ea .both with
    | none => s
    | some t =>
      let e := s.scopeNow sc.toNat
      let s0 := performAllLoads s f.core f.ctx
      let pl := atomPlace s0 f.core e.point t.place
      let s1 := settlePlace s0 f.core pl t.place 8
      let old := placeWord s1 f.core pl t.place 8
      let new := (old / 2 ^ 32 + 1) % 2 ^ 32 * 2 ^ 32 + old % 2 ^ 32
      let s2 := (atomDo s1 f.core f.ctx t pl opSwap 8 new 0).1
      (wakeWaiters s2 t.place (placeKind pl) new e).ordered f.core f.ctx sc.toNat e.gen)

/-- R142: waiters a place may still record. -/
def recordSpace (s : State) (ck : Nat) (p : Place) (kind : Nat) : Bool :=
  let n := (s.waiters.filter (fun w => w.kind == kind &&
    (if kind = 0 then w.place.key.1 == p.key.1
     else if kind = 1 then dieOf w.core == dieOf ck && l2Slice (w.place.key.2 / 128) == l2Slice (p.key.2 / 128)
     else homeOf w.place.key.2 == homeOf p.key.2))).length
  if kind = 0 then decide (n < Config.unitWaiters) else if kind = 1 then decide (n < Config.sliceWaiters)
  else decide (n < Config.homeWaiters)

/-- R142: the request of a context stands at its place, or waits to be sent again. -/
def requestStands (s : State) (ck x : Nat) : Bool :=
  s.waiters.any (fun w => w.core == ck && w.ctx == x) || (s.ctx ck x).resend.isSome

/-- R142: the request reaches its place: recorded, or to be sent again. -/
def registerWaiter (s : State) (w : Waiter) : State :=
  if requestStands s w.core w.ctx then s
  else if recordSpace s w.core w.place w.kind then { s with waiters := s.waiters ++ [w] }
  else s.modCtx w.core w.ctx (fun c => { c with resendAt := s.tick + Config.resendTicks, resend := some w })

/-- R141, R142: the place has answered the request of a `tkt.wait`, or answers it at once as it first comes. -/
def tktPassed (t : Target) (x sc : BitVec 5) (s : State) : Bool :=
  let ck := s.frame.core
  let pl := atomPlace s ck (s.scopeNow sc.toNat).point t.place
  s.me.granted || (!requestStands s ck s.frame.ctx &&
    ticketPassed (placeWord (settlePlace s ck pl t.place 8) ck pl t.place 8) (s.srcS x).toNat)

/-- R141: the gate of `tkt.wait`. -/
def tktWaitGate (b x sc : BitVec 5) (o : BitVec 3) (s : State) : Gate :=
  (tktGate (s.ea b) sc o s).and (match s.targetOf (s.ea b) .both with
    | some t => gateIf (!tktPassed t x sc s) (.block .ticket)
    | none => .go)

/-- R141, R142: `tkt.wait` passes, or blocks with its request at the place. -/
def execTktWait (b x sc : BitVec 5) (o : BitVec 3) (s : State) : Out :=
  let ea := s.ea b
  let f := s.frame
  match tktGate ea sc o s, s.targetOf ea .both with
  | .go, some t =>
    let e := s.scopeNow sc.toNat
    let pl := atomPlace s f.core e.point t.place
    let s0 := settlePlace s f.core pl t.place 8
    if tktPassed t x sc s then
      let s1 := s0.modMe (fun c => { c with granted := false, resend := none })
      .next (if o = 1 then acquire s1 f.core f.ctx sc.toNat e else s1.ordered f.core f.ctx sc.toNat e.gen)
    else .next (registerWaiter (s0.blockFrame .ticket)
      { place := t.place, kind := placeKind pl, core := f.core, ctx := f.ctx, ticket := s.srcW x, page := t.page })
  | g, _ => behind g s id

/-- TICKET_RESEND (R142): an unrecorded request is sent again. -/
def execTicketResend (s : State) : Out :=
  let ck := s.ev.core
  let x := s.ev.ctx
  let c := s.ctx ck x
  match c.resend with
  | none => .next s
  | some w =>
    if s.tick < c.resendAt then .next s
    else
      let word := if w.kind = 1 then leNat (s.dieView (dieOf ck) w.place 8) else leNat (s.readPlace w.place 8)
      if ticketPassed word w.ticket.toNat then
        .next (s.modCtx ck x (fun c => { c with granted := true, resend := none, status := .ready }))
      else .next (registerWaiter (s.modCtx ck x (fun c => { c with resend := none })) w)

-- barriers

/-- R143: an ID that the armature does not declare for the level. -/
def barCause (s : State) (l : BitVec 3) (i : BitVec 2) : Option Nat :=
  if l = 0 then none
  else if (s.me.win.bars.getD (l.toNat - 1) 0) ≤ i.toNat then some cResource else none

def barGate (l : BitVec 3) (i : BitVec 2) (sc : BitVec 5) (o : BitVec 3) (s : State) : Gate :=
  let f := s.frame
  Gate.all [match barCause s l i with | some c => .trap c | none => .go, gateIf (o != 0) (scopeGate s sc.toNat),
    gateIf (o == 2 && unacked s f.core f.ctx (s.scopeNow sc.toNat).point) .stall]

/-- R143: `bar.arrive`. -/
def execBarArrive (l : BitVec 3) (i : BitVec 2) (sc : BitVec 5) (o : BitVec 3) (s : State) : Out :=
  behind (barGate l i sc o s) s (fun s =>
    let s1 := releaseBy sc o s
    if l = 0 then s1 else arrive s1 s.frame.core s.frame.ctx l.toNat i.toNat)

/-- R143: the gate of `bar.wait`. -/
def barWaitGate (l : BitVec 3) (i : BitVec 2) (sc : BitVec 5) (o : BitVec 3) (s : State) : Gate :=
  (barGate l i sc o s).and
    (gateIf (!barrierPassed s s.frame.core s.frame.ctx l.toNat i.toNat) (.block .barrier))

/-- R226: a join that a restored arrival holds back until its wait has passed. -/
def joinHeld : Nat := 2 ^ 40

/-- R143, R226: the arrivals of a level and ID have been waited for. -/
def clearArrivals (s : State) (ck x level id : Nat) : State :=
  let ph := match s.launchOf ck x with | some l => (l.barrier level (unitOf level ck) id).phase | none => 0
  s.modCtx ck x (fun c =>
    { c with arrivals := c.arrivals.filter (fun a => !(a.level == level && a.id == id))
             joins := if joinHeld ≤ c.joins.get (4 * level + id) 0 then c.joins.set (4 * level + id) (ph + 1) else c.joins })

/-- R143: `bar.wait` passes; with acq it then acquires. -/
def execBarWait (l : BitVec 3) (i : BitVec 2) (sc : BitVec 5) (o : BitVec 3) (s : State) : Out :=
  behind (barWaitGate l i sc o s) s (fun s =>
    acquireBy sc o (clearArrivals s s.frame.core s.frame.ctx l.toNat i.toNat))

/-- R10, R225: the delay of a barrier's level has passed since the last arrival: up to a die in cycles of the arithmetic clock of the
core of that arrival (log entry 124), above it in time. -/
def barrierDue (s : State) (b : Barrier) : Bool :=
  if b.level ≤ 3 then decide (b.lastOn.2 + Config.barrierCycles b.level ≤ s.cycleNow b.lastOn.1)
  else decide (b.lastAt + Config.barrierTicks b.level ≤ s.tick)

/-- BARRIER_PHASE_COMPLETE (R225, R226): the phase of level `ev.idx`, unit `ev.num` and ID `ev.val` of a launch completes
when every member that takes part has arrived and the level's delay has passed. -/
def execBarrierPhaseComplete (s : State) : Out :=
  match s.launch s.ev.launch with
  | none => .next s
  | some l =>
    let b := l.barrier s.ev.idx s.ev.num s.ev.val
    if phaseFull s l b && barrierDue s b then
      let b' : Barrier :=
        { b with phase := b.phase + 1, arrived := b.ahead, ahead := [], lastAt := s.tick, lastOn := (b.lastOn.1, s.cycleNow b.lastOn.1) }
      .next (s.modLaunch l.id (fun l => l.setBarrier b'))
    else .next s

end Sys2Proof.Machine
end

