-- ==== Sys2Proof/Machine/Stream.lean ====
section
/-!
DEFINITION. Streams and handles: `sbind`, `sstop`, `srewind` (R144 to R147), `cbinit` and `cbadv` (R148 to R150, R27), and
the transfer unit's fetches and drains (R25, R26, R245).
-/

namespace Sys2Proof.Machine

-- descriptors

/-- R98: the launch's image declares the L6 feature. -/
def l6Declared (s : State) (ck x : Nat) : Bool := (imageOf s ck x).features.getLsbD 1

/-- A signed 32-bit field. -/
def signedField (bs : List Byte) (o : Nat) : Int := signedOf 32 (fieldAt bs o 4)

/-- Table 5.6: the fields of a stream descriptor. -/
def streamOfBytes (bs : List Byte) : StreamDesc :=
  let ctrl := fieldAt bs 0xA 1
  { base := fieldAt bs 0 8
    fmt := fieldAt bs 8 1 % 32
    dims := fieldAt bs 9 1
    rd := ctrl % 4
    byp := bitsOf ctrl 2 1 == 1
    scaled := bitsOf ctrl 3 1 == 1
    lanes := fieldAt bs 0xB 1
    sstride := signedField bs 0xC
    counts := (List.range 5).map (fun k => fieldAt bs (0x10 + 4 * k) 4)
    strides := (List.range 5).map (fun k => signedField bs (0x24 + 4 * k))
    sbase := fieldAt bs 0x38 8 }

/-- R145: a descriptor that satisfies Table 5.6; `l6` says that the image may use L6 (R98). -/
def streamOk (l6 : Bool) (bs : List Byte) : Bool :=
  let d := streamOfBytes bs
  decide (d.base < 2 ^ 56) && fieldAt bs 8 1 / 32 == 0 && fieldAt bs 0xA 1 / 16 == 0 &&
  decide (d.fmt ≤ 0xD) && (d.fmt != 5 || l6) &&
  decide (1 ≤ d.dims) && decide (d.dims ≤ 5) && decide (1 ≤ d.lanes) && decide (d.lanes ≤ 32) &&
  (d.counts.drop d.dims).all (· == 0) &&
  (if d.scaled then (d.fmt == 3 || d.fmt == 4 || d.fmt == 5) && decide (d.lanes + (d.lanes + 7) / 8 ≤ 32)
   else d.sbase == 0)

/-- Table 5.8: the fields of a handle descriptor. -/
def handleOfBytes (bs : List Byte) : HandleDesc :=
  { kind := fieldAt bs 0 1
    fmt := fieldAt bs 1 1 % 32
    scaled := fieldAt bs 2 1 % 2 == 1
    base := fieldAt bs 4 4
    slotBytes := fieldAt bs 8 4
    slots := fieldAt bs 0xC 4
    sbase := fieldAt bs 0x10 4
    sbytes := fieldAt bs 0x14 2 }

/-- R149: the checks that raise STREAM for handle `k`. -/
def handleOk (l6 : Bool) (k : Nat) (bs : List Byte) : Bool :=
  let d := handleOfBytes bs
  fieldAt bs 1 1 / 32 == 0 && fieldAt bs 2 1 / 2 == 0 && fieldAt bs 3 1 == 0 && fieldAt bs 0x16 10 == 0 &&
  decide (d.fmt ≤ 0xD) && (d.fmt != 5 || l6) &&
  (if k = 6 then d.kind == 1 else if k = 7 then d.kind == 2 else d.kind == 0) &&
  d.slotBytes % 128 == 0 && decide (128 ≤ d.slotBytes) && decide (1 ≤ d.slots) && decide (d.slots ≤ 256) &&
  (d.scaled || d.sbase == 0) &&
  (if d.kind = 0 then d.base % 128 == 0 else d.base == 0 && decide (d.slotBytes * d.slots ≤ 16384))

/-- R149: a ring, or a scale area, reaches beyond the allocation. -/
def handleBeyond (spad : Nat) (bs : List Byte) : Bool :=
  let d := handleOfBytes bs
  (d.kind == 0 && decide (spad < d.base + d.slotBytes * d.slots)) ||
    (d.scaled && decide (spad < d.sbase + d.sbytes * d.slots))

/-- R145, R149: template `n` of a list of templates, or the bytes at an address. -/
def descBytes (s : State) (tpl : List (List Byte)) (t : BitVec 1) (ea n : Nat) : Option (List Byte) :=
  if t = 1 then tpl[s.frame.litVal.toNat]? else some (rangeBytes s s.frame.core s.frame.ctx (blockPieces ea n))

/-- The gate of reading a descriptor of `n` bytes. -/
def descGate (s : State) (t : BitVec 1) (ea n : Nat) : Gate :=
  if t = 1 then .go
  else (accessGate s ea n n .read).and
    (gateIf (rangeMarked s s.frame.core s.frame.ctx (blockPieces ea n)) (.trap cData))

-- binding

/-- R13: the windows of latches and queues. -/
def bindResource (s : State) (k : BitVec 1) (i : BitVec 3) : Bool :=
  if k = 0 then decide (s.me.win.latches ≤ i.toNat) else decide (s.me.win.queues ≤ i.toNat)

/-- R145: the gate of `sbind`. -/
def sbindGate (k : BitVec 1) (i : BitVec 3) (b : BitVec 5) (t : BitVec 1) (s : State) : Gate :=
  let f := s.frame
  let ea := s.ea b
  Gate.all [gateIf (bindResource s k i) (.trap cResource), descGate s t ea 64,
    match descBytes s (imageOf s f.core f.ctx).streamsT t ea 64 with
    | none => .trap cStream
    | some bs => gateIf (!streamOk (l6Declared s f.core f.ctx) bs) (.trap cStream)]

/-- Discard what the transfer unit holds of a latch and what the context has not consumed of it. -/
def dropLatch (c : Ctx) (key : Nat) : Ctx :=
  { c with latchBuf := c.latchBuf.erase key, latchPops := c.latchPops.erase key }

/-- R145: bind latch or queue `i` of a group at position 0. -/
def bindOne (k : BitVec 1) (i : BitVec 3) (b : Binding) (c : Ctx) (g : Nat) : Ctx :=
  let key := 8 * g + i.toNat
  if k = 0 then
    let c1 := dropLatch c key
    { c1 with arch := { c1.arch with latches := c1.arch.latches.set key b } }
  else { c with arch := { c.arch with queues := c.arch.queues.set key b } }

def execSbind (k : BitVec 1) (i : BitVec 3) (b x : BitVec 5) (t : BitVec 1) (s : State) : Out :=
  behind (sbindGate k i b t s) s (fun s =>
    let f := s.frame
    match descBytes s (imageOf s f.core f.ctx).streamsT t (s.ea b) 64 with
    | none => s
    | some bs =>
      let n : Binding := { desc := streamOfBytes bs, src := if t = 1 then f.litVal.toNat else s.ea b, template := t == 1 }
      s.modMe (fun c => (s.groupMask x).foldl (bindOne k i n) c))

/-- R147: the recorded cause of a faulted queue that a form names, 0 for none. -/
def namedFault (s : State) (k : BitVec 1) (i : BitVec 3) (x : BitVec 5) : Nat :=
  if k = 0 then 0
  else ((s.groupMask x).map (fun g => s.me.qFault.get (8 * g + i.toNat) 0)).find? (· != 0) |>.getD 0

/-- R147: the mark of a queue goes as its cause is raised. -/
def clearFaults (keys : List Nat) (s : State) : State :=
  s.modMe (fun c => { c with qFault := c.qFault.filter (fun q => !keys.contains q.1) })

/-- R146: the gate of `sstop` and `srewind`. -/
def stopGate (k : BitVec 1) (i : BitVec 3) (x : BitVec 5) (s : State) : Gate :=
  Gate.all [gateIf (bindResource s k i) (.trap cResource), gateIf (namedFault s k i x != 0) (.trap (namedFault s k i x))]

/-- R146, R147: a form on bindings behind its gate; a recorded fault is raised once. -/
def bindForm (k : BitVec 1) (i : BitVec 3) (x : BitVec 5) (act : Ctx → Nat → Ctx) (s : State) : Out :=
  let g := stopGate k i x s
  let keys := (s.groupMask x).map (fun g => 8 * g + i.toNat)
  let s0 := if g = .trap (namedFault s k i x) then clearFaults keys s else s
  behind g s0 (fun s => s.modMe (fun c => (s.groupMask x).foldl act c))

/-- R146: unbind; a queue at once, its held entries draining at their checkpoint (DESIGN CHOICE, log entry 134). -/
def stopOne (k : BitVec 1) (i : BitVec 3) (c : Ctx) (g : Nat) : Ctx :=
  let key := 8 * g + i.toNat
  if k = 0 then
    let c1 := dropLatch c key
    { c1 with arch := { c1.arch with latches := c1.arch.latches.erase key } }
  else { c with arch := { c.arch with queues := c.arch.queues.erase key } }

/-- R146: back to entry 0. -/
def rewindOne (k : BitVec 1) (i : BitVec 3) (c : Ctx) (g : Nat) : Ctx :=
  let key := 8 * g + i.toNat
  if k = 0 then
    match c.arch.latches.find key with
    | none => c
    | some b =>
      let c1 := dropLatch c key
      { c1 with arch := { c1.arch with latches := c1.arch.latches.set key { b with pos := 0 } } }
  else
    match c.arch.queues.find key with
    | none => c
    | some b => { c with arch := { c.arch with queues := c.arch.queues.set key { b with pos := 0 } } }

def execSstop (k : BitVec 1) (i : BitVec 3) (x : BitVec 5) (s : State) : Out := bindForm k i x (stopOne k i) s
def execSrewind (k : BitVec 1) (i : BitVec 3) (x : BitVec 5) (s : State) : Out := bindForm k i x (rewindOne k i) s

-- handles

/-- R13, R149: the windows of handles. -/
def handleResource (s : State) (k : Nat) : Bool :=
  if 6 ≤ k then !s.me.win.mxu else decide (s.me.win.handles ≤ k)

/-- R149: the gate of `cbinit`. -/
def cbinitGate (k : BitVec 3) (b : BitVec 5) (t : BitVec 1) (s : State) : Gate :=
  let f := s.frame
  let ea := s.ea b
  Gate.all [gateIf (handleResource s k.toNat) (.trap cResource), descGate s t ea 32,
    match descBytes s (imageOf s f.core f.ctx).handlesT t ea 32 with
    | none => .trap cStream
    | some bs => (gateIf (!handleOk (l6Declared s f.core f.ctx) k.toNat bs) (.trap cStream)).and
        (gateIf (handleBeyond s.me.win.spad bs) (.trap cResource))]

/-- R149: a handle with both pointers 0. -/
def initOne (k : Nat) (d : HandleDesc) (c : Ctx) (g : Nat) : Ctx :=
  { c with arch := { c.arch with handles := c.arch.handles.set (8 * g + k) { desc := d } }
           engFill := c.engFill.erase (8 * g + k) }

def execCbinit (k : BitVec 3) (b x : BitVec 5) (t : BitVec 1) (s : State) : Out :=
  behind (cbinitGate k b t s) s (fun s =>
    let f := s.frame
    match descBytes s (imageOf s f.core f.ctx).handlesT t (s.ea b) 32 with
    | none => s
    | some bs => s.modMe (fun c => (s.groupMask x).foldl (initOne k.toNat (handleOfBytes bs)) c))

/-- R27: slots filled beyond a handle's consumer pointer. -/
def Ctx.filled (c : Ctx) (key : Nat) : Nat :=
  let h := c.arch.handles.get key {}
  h.produced + c.engFill.get key 0 - h.consumed

/-- R27: slots free: what a region consumes returns at its checkpoint. -/
def Ctx.freeSlots (c : Ctx) (key : Nat) : Nat :=
  let h := c.arch.handles.get key {}
  h.desc.slots - (h.produced + c.engFill.get key 0 - h.returned)

/-- R150: the gate of `cbadv` for one group. -/
def cbadvOne (sd : BitVec 1) (k n : Nat) (s : State) (g : Nat) : Gate :=
  let key := 8 * g + k
  match s.frame.old.handles.find key with
  | none => .trap cStream
  | some h =>
    if h.desc.slots < n then .trap cStream
    else if sd = 1 then gateIf (decide (s.me.freeSlots key < n)) (.block .slots)
    else gateIf (decide (s.me.filled key < n)) (.block .slots)

/-- R150: the gate of `cbadv`: a fault in any group before a wait in any. -/
def cbadvGate (sd : BitVec 1) (k : BitVec 3) (x : BitVec 5) (s : State) : Gate :=
  let n := s.frame.litVal.toNat
  let gs := (s.groupMask x).map (cbadvOne sd k.toNat n s)
  Gate.all ([gateIf (n == 0 || decide (65536 ≤ n)) (.trap cIllegal), gateIf (handleResource s k.toNat) (.trap cResource)] ++
    gs.filter (fun g => match g with | .trap _ => true | _ => false) ++ gs)

/-- R150: one pointer of a handle moves. -/
def advOne (sd : BitVec 1) (k n : Nat) (c : Ctx) (g : Nat) : Ctx :=
  let key := 8 * g + k
  let h := c.arch.handles.get key {}
  let h' := if sd = 1 then { h with produced := h.produced + n } else { h with consumed := h.consumed + n }
  { c with arch := { c.arch with handles := c.arch.handles.set key h' } }

def execCbadv (sd : BitVec 1) (k : BitVec 3) (x : BitVec 5) (s : State) : Out :=
  behind (cbadvGate sd k x s) s (fun s =>
    s.modMe (fun c => (s.groupMask x).foldl (advOne sd k.toNat s.frame.litVal.toNat) c))

-- the transfer unit

/-- The number of the next entry to fetch into a latch. -/
def nextFetch (b : Binding) (held : List LatchEntry) : Nat := held.foldl (fun n e => max n (e.num + 1)) b.pos

/-- R25, R35: an entry may be fetched: the stream has one more and the latch has room. -/
def fetchable (c : Ctx) (key : Nat) : Bool :=
  match c.arch.latches.find key with
  | none => false
  | some b =>
    let held := c.latchBuf.get key []
    decide (nextFetch b held < b.desc.entries) && decide (held.length < 2 * Config.latchEntries) &&
    decide ((held.filter (fun e => b.pos ≤ e.num)).length < Config.latchEntries)

/-- R240, R245, R262: bytes of an entry's ranges as the transfer unit reads them (handed-over stores are seen, withheld ones are
not), whether one is marked, and whether a race in trap mode struck. -/
def fetchBytes (ck x : Nat) (d : StreamDesc) : List (Target × Nat) → State → State × List Byte × Bool × Bool
  | [], s => (s, [], false, false)
  | (t, n) :: r, s =>
    let l : Load := { id := 0, dst := 0, target := t, size := n, byp := d.byp, rd := d.rd }
    let q := readAt s ck (s.handedStores ck x t) l
    let chk := checkRead q.1 ck x t n
    let rest := fetchBytes ck x d r chk.1
    (rest.1, q.2.1 ++ rest.2.1, (q.2.2 && s.marked t.place n) || rest.2.2.1, chk.2 || rest.2.2.2)

/-- A fetched entry is kept for a latch. -/
def keepEntry (s : State) (ck x key : Nat) (e : LatchEntry) : State :=
  s.modCtx ck x (fun c => { c with latchBuf := c.latchBuf.set key (c.latchBuf.get key [] ++ [e]) })

/-- R25, R147: the next entry of a latch is fetched; a fault is recorded with it. -/
def streamFetch (s : State) (ck x key : Nat) : State :=
  let c := s.ctx ck x
  match c.arch.latches.find key with
  | none => s
  | some b =>
    if !fetchable c key then s
    else
      let n := nextFetch b (c.latchBuf.get key [])
      let bad (cause : Nat) : State := keepEntry s ck x key { num := n, data := 0, fault := cause }
      if !b.desc.aligned n then bad cAlignment
      else
        match entryTargets s ck x .read (b.desc.ranges n) with
        | .error 0 => s
        | .error c => bad c
        | .ok l =>
          let r := fetchBytes ck x b.desc l (tlbRanges s ck x (b.desc.ranges n))
          let cause := if r.2.2.1 then cData else if r.2.2.2 then cRace else 0
          keepEntry r.1 ck x key { num := n, data := b.desc.lanesOf r.2.1, fault := cause }

/-- STREAM_FETCH (R25): latch `ev.num` of group `ev.group`. -/
def execStreamFetch (s : State) : Out :=
  let e := s.ev
  .next (streamFetch s e.core e.ctx (8 * e.group + e.num))

/-- OUTPUT_QUEUE_DRAIN (R26). -/
def execOutputQueueDrain (s : State) : Out :=
  .next (drainEntry s s.ev.core s.ev.ctx)

end Sys2Proof.Machine
end

