-- ==== Sys2Proof/Machine/Engine.lean ====
section
/-!
DEFINITION. Engine commands in common: what an engine reads (R190), how it writes, with the buffering of layer transactions
(R279, R281), the command block and its header (R185), acceptance into an engine context's queue (R186, R189), triggers
(R200), and the end of a command with its error record (R187, R190).
-/

namespace Sys2Proof.Machine

/-- What comes of reading for a command: it has to wait for a migrating page, it fails, or it goes on with a value. -/
inductive RdRes (α : Type) where
  | wait
  | bad (f : EngFail)
  | ok (a : α)

/-- A reading for a command: what comes of it, and the pieces of memory that it has read on the way: address and length. -/
structure Rd (α : Type) where
  res : RdRes α
  log : List (Nat × Nat) := []

def Rd.wait {α : Type} : Rd α := { res := .wait }
def Rd.bad {α : Type} (f : EngFail) : Rd α := { res := .bad f }
def Rd.ok {α : Type} (a : α) : Rd α := { res := .ok a }

def Rd.bind {α β : Type} (r : Rd α) (f : α → Rd β) : Rd β :=
  match r.res with
  | .wait => { res := .wait, log := r.log }
  | .bad e => { res := .bad e, log := r.log }
  | .ok a => { res := (f a).res, log := r.log ++ (f a).log }

def Rd.map {α β : Type} (r : Rd α) (f : α → β) : Rd β := r.bind (fun a => .ok (f a))

/-- Fail where a condition holds. -/
def Rd.check (b : Bool) (f : EngFail) : Rd Unit := if b then .bad f else .ok ()

/-- Every element in turn. -/
def Rd.mapM {α β : Type} (f : α → Rd β) : List α → Rd (List β)
  | [] => .ok []
  | a :: t => (f a).bind (fun b => (Rd.mapM f t).map (fun l => b :: l))

def fail (code : Nat) (detail : Nat := 0) : EngFail := { code := code, detail := detail }

-- reading

/-- R187, R190, R239: bytes of a range as an engine of the context's die reads them, through its L2. -/
def rdPieces (s : State) (ck x : Nat) : List (Nat × Nat) → Rd (List Byte)
  | [] => .ok []
  | (a, n) :: t =>
    match reachEng s ck x a .read with
    | .miss => .wait
    | .trap c => .bad (fail (eOfCause c) a)
    | .ok g =>
      if s.marked g.place n then .bad (fail eData a)
      else
        let r := (rdPieces s ck x t).map (fun bs => l2Sees s (dieOf ck) g n ++ bs)
        { r with log := (a, n) :: r.log }

def rdBytes (s : State) (ck x a n : Nat) : Rd (List Byte) := rdPieces s ck x (blockPieces a n)

/-- R239, R347: what an engine's read of a piece leaves: the page's translation in the die TLB, and in the die's L2 the line, where
it may hold it, with insertion value 2. -/
def engRead (ck x : Nat) (s0 : State) (p : Nat × Nat) : State :=
  let s := tlbUse s0 ck x p.1 false
  match reachEng s ck x p.1 .read with
  | .ok g => (match g.place with | .hbm a => (l2Read s (dieOf ck) (lineTarget g) (a / 128 * 128) 128 2).1 | _ => s)
  | _ => s

/-- What the reads of a command leave. -/
def engReads (s : State) (ck x : Nat) (l : List (Nat × Nat)) : State := l.foldl (engRead ck x) s

/-- R265: a virtual address computed modulo 2^64. -/
def addr64 (a : Int) : Nat := (BitVec.ofInt 64 a).toNat

/-- A range that must be aligned to `align`. -/
def rdAligned (s : State) (ck x a n align : Nat) : Rd (List Byte) :=
  (Rd.check (a % align != 0) (fail eAlignment a)).bind (fun _ => rdBytes s ck x a n)

/-- The descriptor address of a command without a block (R185: DESC = s0). -/
def noBlock : Nat := 2 ^ 64

/-- R98: the launch's image declares a feature. -/
def declares (s : State) (ck x bit : Nat) : Bool := (imageOf s ck x).features.getLsbD bit

/-- Table 7.1: TAG of a tagged header, and ERRADDR. -/
def headerTag (bs : List Byte) : Option Nat := if bitsOf (fieldAt bs 0 8) 12 1 = 1 then some (bitsOf (fieldAt bs 0 8) 0 12) else none
def headerErr (bs : List Byte) : Nat := fieldAt bs 8 8

/-- R185, R190: a command block: its header and `n` bytes of body; a block without an address is a header of zeros. -/
def rdBlock (s : State) (ck x desc n : Nat) : Rd (List Byte) :=
  if desc = noBlock then .ok (zeros 16)
  else (rdAligned s ck x desc (16 + n) 16).bind (fun bs =>
    (Rd.check (fieldAt bs 0 8 / 2 ^ 13 != 0) (fail eBadBlock)).map (fun _ => bs))

/-- Word at offset `o` of a block. -/
def EngCmd.word (c : EngCmd) (o : Nat) : Nat := fieldAt c.body o 8

-- writing

/-- A piece of a write: address, bytes, and for each byte the bits replaced. -/
abbrev WPiece := Nat × List Byte × List Byte

/-- The pieces of a write by block. -/
def EWrite.pieces (w : EWrite) : List WPiece :=
  let m : List Byte := match w.mask with
    | none => List.replicate w.bytes.length 255
    | some k => leBytes w.bytes.length k
  (blockPieces w.va w.bytes.length).map (fun p => (p.1, (w.bytes.drop (p.1 - w.va)).take p.2, (m.drop (p.1 - w.va)).take p.2))

/-- Bytes where some bits are replaced. -/
def maskBytes (old new mask : List Byte) : List Byte :=
  (List.range new.length).map (fun i =>
    let m := mask.getD i 255
    (old.getD i 0 &&& ~~~ m) ||| (new.getD i 0 &&& m))

/-- A range of a transaction covers some of `n` bytes at a fabric address. -/
def covers (input : Bool) (fa n : Nat) (t : Ltx) : Bool :=
  t.ranges.any (fun r => r.2.2 == input && decide (r.1 < fa + n) && decide (fa < r.1 + r.2.1))

/-- R280: a commit of a transaction that the launch's contexts have accepted before a command. -/
def commitBefore (s : State) (t : Ltx) (c : EngCmd) : Bool :=
  (members s t.launch).any (fun m => (s.ctx m.1 m.2).ec.any (fun e => e.2.cmds.any (fun k =>
    k.op == 0xF && !k.ready && k.opnd % 65536 == t.id && decide (k.at_ < c.at_))))

/-- R279: the open transactions of the launch that buffer bytes of a write of a command there. -/
def buffersOf (s : State) (launch : Nat) (c : EngCmd) (fa n : Nat) : List Ltx :=
  s.ltxs.filter (fun t => t.launch == launch && t.state == 0 && covers false fa n t && !commitBefore s t c)

/-- R281: a transaction with such a result range has aborted since the command was accepted. -/
def abortedHit (c : EngCmd) (fa n : Nat) : Bool := c.struck.any (fun r => decide (r.1 < fa + n) && decide (fa < r.1 + r.2))

/-- R190, R279, R281: what keeps a command from writing `n` bytes of one page. -/
def checkSpan (s : State) (ck x : Nat) (c : EngCmd) (a : Access) (va n : Nat) : Rd Unit :=
  match reachEng s ck x va a with
  | .miss => .wait
  | .trap k => .bad (fail (eOfCause k) va)
  | .ok g =>
    if ltxInput s g.place n then .bad (fail eProtection va)
    else
      match g.place with
      | .hbm fa => if abortedHit c fa n then .bad (fail eLtxAborted va) else .ok ()
      | _ => .ok ()

def checkPiece (s : State) (ck x : Nat) (c : EngCmd) (p : WPiece) : Rd Unit := checkSpan s ck x c .write p.1 p.2.1.length

/-- Every piece may be written. -/
def checkWrites (s : State) (ck x : Nat) (c : EngCmd) (ws : List EWrite) : Rd Unit :=
  (Rd.mapM (checkPiece s ck x c) (ws.flatMap (·.pieces))).map (fun _ => ())

/-- A buffered byte, the later over the earlier. -/
def bufferByte (b : List Host.Cell) (a : Nat) : Option Byte := ((b.filter (fun c => c.1 == a)).getLast?).map (·.2)

/-- R279: distinct bytes that a home's MSC buffers for all open transactions. -/
def staged (s : State) (home : Nat) : Nat :=
  ((s.ltxs.filter (fun t => t.state == 0)).map (fun t =>
    ((t.buffer.map (·.1)).filter (fun a => homeOf a == home)).eraseDups.length)).sum

/-- R279: cells that fall in result ranges of a transaction are buffered, for a context's command; true when that overflowed the
staging memory of their home. -/
def bufferCells (s : State) (t : Ltx) (me : Nat) (cells : List Host.Cell) : State × Bool :=
  let fresh := (cells.filter (fun c => (bufferByte t.buffer c.1).isNone)).length
  if Config.stagingBytes < staged s (homeOf (cells.headD (0, 0)).1) + fresh then (ltxAbort s t 5 0, true)
  else
    ({ s with ltxs := s.ltxs.map (fun (y : Ltx) =>
        if y.launch = t.launch ∧ y.id = t.id ∧ y.state = 0 then
          { y with buffer := y.buffer ++ cells, parties := addOnce me y.parties } else y) }, false)

/-- R279: bytes of a piece that fall in result ranges of transactions are buffered in each of these, the others written. -/
def bufferPiece (s : State) (ck : Nat) (ts : List Ltx) (me : Nat) (g : Target) (fa : Nat) (new mask : List Byte) : State × Bool :=
  let byte (old : Byte) (i : Nat) : Byte := let m := mask.getD i 255; (old &&& ~~~ m) ||| (new.getD i 0 &&& m)
  let offs := List.range new.length
  let outside := offs.filter (fun i => !ts.any (covers false (fa + i) 1))
  let s1 := if outside.isEmpty then s else performSlice s (dieOf ck) g.place new.length
  let s2 :=
    if outside.isEmpty then s1
    else (mscRange (dropShared s1 [fa / 128] none) fa new.length 2).performCells (.hbm 0) (outside.map (fun i => (fa + i, byte (Mem.rd s1.mem (fa + i)) i)))
  ts.foldl (fun r t =>
    if r.2 then r
    else
      bufferCells r.1 t me ((offs.filter (fun i => covers false (fa + i) 1 t)).map (fun i =>
        (fa + i, byte ((bufferByte t.buffer (fa + i)).getD (Mem.rd r.1.mem (fa + i))) i)))) (s2, false)

/-- A checked piece is written, or buffered; with `true` when that overflowed the staging memory. -/
def putPiece (s : State) (ck x : Nat) (c : EngCmd) (p : WPiece) : State × Bool :=
  match reachEng s ck x p.1 .write with
  | .ok g =>
    let n := p.2.1.length
    let s := tlbUse s ck x p.1 false
    let direct : State :=
      let s1 := performSlice s (dieOf ck) g.place n
      s1.engPerform g (maskBytes (s1.readPlace g.place n) p.2.1 p.2.2)
    (match g.place with
     | .hbm fa =>
       (match buffersOf s (s.ctx ck x).launch c fa n with
        | [] => (direct, false)
        | ts =>
          let s1 := if g.race = 0 then s else clearShadow s fa (List.range ((fa % 64 + n + 63) / 64))
          bufferPiece s1 ck ts (memberKey ck x) g fa p.2.1 p.2.2)
     | _ => (direct, false))
  | _ => (s, false)

def putPieces (ck x : Nat) (c : EngCmd) : List WPiece → State → State × Bool
  | [], s => (s, false)
  | p :: t, s =>
    let r := putPiece s ck x c p
    if r.2 then r else putPieces ck x c t r.1

/-- Perform checked writes; R279: an overflow of the staging memory fails the command. -/
def performWrites (s : State) (ck x : Nat) (c : EngCmd) (ws : List EWrite) : State × Option EngFail :=
  let r := putPieces ck x c (ws.flatMap (·.pieces)) s
  (r.1, if r.2 then some (fail eLtxAborted) else none)

-- acceptance

/-- R38, R186: a command that still stands in its queue. -/
def queueLength (e : EngCtx) : Nat := (e.cmds.filter (·.queued)).length

/-- R189: bytes of a block as the accepting die reads them, behind the issuing context's own stores. -/
def acceptPieces (s : State) (ck x : Nat) : List (Nat × Nat) → Rd (List Byte)
  | [] => .ok []
  | (a, n) :: t =>
    match reachEng s ck x a .read with
    | .miss => .wait
    | .trap c => .bad (fail (eOfCause c) a)
    | .ok g =>
      if s.marked g.place n then .bad (fail eData a)
      else (acceptPieces s ck x t).map (fun bs => s.ctxView ck x g n ++ bs)

def acceptBytes (s : State) (ck x a n : Nat) : Rd (List Byte) :=
  if a % 16 ≠ 0 then .bad (fail eAlignment a) else acceptPieces s ck x (blockPieces a n)

/-- R189: the order tag of a block, where its header can be read. -/
def tagAt (s : State) (ck x desc : Nat) : Option Nat :=
  if desc = noBlock then none
  else match (acceptBytes s ck x desc 16).res with | .ok bs => headerTag bs | _ => none

/-- R189, R350: the header of a block lies on a page that migrates, so that its order tag cannot be read yet. -/
def tagWaits (s : State) (ck x desc : Nat) : Bool :=
  desc != noBlock && (match (acceptBytes s ck x desc 16).res with | .wait => true | _ => false)

/-- A block that lies on a migrating page cannot be read yet. -/
def Rd.waits {α : Type} (r : Rd α) : Bool :=
  match r.res with
  | .wait => true
  | _ => false

/-- R13, R38, R127, R186: the gate of an engine command. -/
def engGate (desc bytes : Nat) (n : BitVec 3) (sc : BitVec 5) (useSc : Bool) (s : State) : Gate :=
  let f := s.frame
  Gate.all [gateIf (decide (s.me.win.tcount ≤ n.toNat)) (.trap cResource), gateIf useSc (scopeGate s sc.toNat),
    gateIf (desc != noBlock && (acceptBytes s f.core f.ctx desc bytes).waits) .stall,
    gateIf (decide (Config.engineQueue ≤ queueLength (s.me.eng n.toNat))) (.block .engineQueue)]

/-- R311: the selection table of a package as a `coll` is accepted. -/
def selTabNow (s : State) (p : Nat) : Tbl (BitVec 64) :=
  (s.pkg p).regs.filter (fun r => decide (0x100 ≤ r.1) && decide (r.1 < 0x240))

/-- R189: a tagged command takes its place in its die's order. -/
def pushTag (s : State) (ck x n : Nat) (c : EngCmd) : State :=
  match c.tag with
  | none => s
  | some t => s.modDie (dieOf ck) (fun d => { d with tagQ := d.tagQ ++ [(t, ck, x, n, c.num)] })

/-- R186: a command takes its number and enters the queue. -/
def accept (n : Nat) (c : EngCmd) (s : State) : State :=
  let f := s.frame
  let e := s.me.eng n
  let c' := { c with num := e.issued + 1 }
  pushTag (s.setEng f.core f.ctx n { e with issued := e.issued + 1, cmds := e.cmds ++ [c'] }) f.core f.ctx n c'

/-- R185: a command as its bundle issues it. -/
def newCmd (op desc opnd : Nat) (sc : BitVec 5) (flags : Nat) (s : State) : EngCmd :=
  { num := 0, op := op, desc := desc, opnd := opnd, sc := sc.toNat, flags := flags, snap := s.scopeNow sc.toNat
    tag := tagAt s s.frame.core s.frame.ctx desc, at_ := s.free
    selTab := if op = 9 then selTabNow s (pkgOf s.frame.core) else [] }

/-- R185: DESC of a form. -/
def descOf (d : BitVec 5) (s : State) : Nat := if d = 0 then noBlock else (s.srcS d).toNat

/-- R185 to R189: an E form other than `trig`. -/
def engForm (op : Nat) (d o : BitVec 5) (n : BitVec 3) (sc : BitVec 5) (flags : Nat) (useSc : Bool) (s : State) : Out :=
  behind (engGate (descOf d s) 16 n sc useSc s) s (fun s =>
    accept n.toNat (newCmd op (descOf d s) (s.srcS o).toNat sc flags s) s)

def execCopy (d o : BitVec 5) (n : BitVec 3) (sc : BitVec 5) (h : BitVec 1) (s : State) : Out :=
  engForm 0x01 d o n sc h.toNat true s
def execCopyx (d o : BitVec 5) (n : BitVec 3) (sc : BitVec 5) (h : BitVec 1) (s : State) : Out :=
  engForm 0x02 d o n sc h.toNat true s
def execGather (d : BitVec 5) (n : BitVec 3) (sc : BitVec 5) (s : State) : Out := engForm 0x03 d 0 n sc 0 true s
def execScatter (d : BitVec 5) (n : BitVec 3) (sc : BitVec 5) (s : State) : Out := engForm 0x04 d 0 n sc 0 true s
def execTload (d : BitVec 5) (n : BitVec 3) (s : State) : Out := engForm 0x05 d 0 n 0 0 false s
def execTseal (d : BitVec 5) (n : BitVec 3) (s : State) : Out := engForm 0x06 d 0 n 0 0 false s
def execSmload (d o : BitVec 5) (n : BitVec 3) (s : State) : Out := engForm 0x07 d o n 0 0 false s
def execImload (d : BitVec 5) (n : BitVec 3) (s : State) : Out := engForm 0x08 d 0 n 0 0 false s
def execTready (d o : BitVec 5) (n : BitVec 3) (s : State) : Out := engForm 0x0A d o n 0 0 false s
def execMldr (d : BitVec 5) (n : BitVec 3) (sc : BitVec 5) (s : State) : Out := engForm 0x0B d 0 n sc 0 true s
def execMred (d : BitVec 5) (n : BitVec 3) (sc : BitVec 5) (s : State) : Out := engForm 0x0C d 0 n sc 0 true s
def execRoute (d : BitVec 5) (n : BitVec 3) (sc : BitVec 5) (s : State) : Out := engForm 0x0D d 0 n sc 0 true s
def execLtxOpen (d : BitVec 5) (n : BitVec 3) (sc : BitVec 5) (s : State) : Out := engForm 0x0E d 0 n sc 0 true s
def execLtxCommit (d o : BitVec 5) (n : BitVec 3) (sc : BitVec 5) (s : State) : Out := engForm 0x0F d o n sc 0 true s
def execLtxAbort (d o : BitVec 5) (n : BitVec 3) (sc : BitVec 5) (s : State) : Out := engForm 0x10 d o n sc 0 true s
def execAeMap (d : BitVec 5) (n : BitVec 3) (sc : BitVec 5) (s : State) : Out := engForm 0x11 d 0 n sc 0 true s
def execAeMapMatrices (d : BitVec 5) (n : BitVec 3) (sc : BitVec 5) (s : State) : Out := engForm 0x11 d 0 n sc 1 true s
def execAeMapUnmap (d : BitVec 5) (n : BitVec 3) (sc : BitVec 5) (s : State) : Out := engForm 0x11 d 0 n sc 2 true s
def execAeGate (d : BitVec 5) (n : BitVec 3) (sc : BitVec 5) (s : State) : Out := engForm 0x12 d 0 n sc 0 true s
def execAeSwap (d : BitVec 5) (n : BitVec 3) (sc : BitVec 5) (s : State) : Out := engForm 0x13 d 0 n sc 0 true s
def execAeNorm (d : BitVec 5) (n : BitVec 3) (sc : BitVec 5) (s : State) : Out := engForm 0x14 d 0 n sc 0 true s
def execAeProj (d : BitVec 5) (n : BitVec 3) (sc : BitVec 5) (s : State) : Out := engForm 0x15 d 0 n sc 0 true s
def execCancel (d o : BitVec 5) (n : BitVec 3) (s : State) : Out := engForm 0x17 d o n 0 0 false s

-- triggers

/-- R185: FLAGS that a command defines. -/
def flagsOk (op flags : Nat) : Bool :=
  if op = 0x01 ∨ op = 0x02 then decide (flags ≤ 1) else if op = 0x11 then decide (flags ≤ 2) else flags == 0

/-- Table 7.3: a command that may have no block. -/
def mayLackBlock (op : Nat) : Bool := op == 0x06 || op == 0x0F || op == 0x10 || op == 0x17

/-- R200: what a trigger's block holds back, or why the trigger is bad; `num` is its number on cN. -/
def trigHeld (s : State) (n num : Nat) (body : List Byte) : Except EngFail Held200 :=
  let f := s.frame
  let w0 := fieldAt body 0x10 8
  let w4 := fieldAt body 0x30 8
  let op := bitsOf w0 8 6
  let sc := w4 % 32
  let block := fieldAt body 0x20 8
  let h : Held200 :=
    { watch := w0 % 8, thresh := fieldAt body 0x18 8, op := op
      desc := if block = 0 && mayLackBlock op then noBlock else block
      opnd := fieldAt body 0x28 8, sc := sc, flags := bitsOf w4 8 8, snap := s.scopeNow sc }
  let reserved := fieldAt body 0 8 / 2 ^ 13 != 0 || bitsOf w0 3 5 != 0 || w0 / 2 ^ 14 != 0 || bitsOf w4 5 3 != 0 || w4 / 2 ^ 16 != 0
  let badOp := op == 0 || decide (0x16 ≤ op) || !flagsOk op h.flags ||
    (decide (0x11 ≤ op) && !declares s f.core f.ctx 2)
  if reserved || badOp || sc == 7 || (scopeCause f.old sc).isSome then .error (fail eBadBlock)
  else if h.watch == n && decide (num ≤ h.thresh) then .error (fail eTrigSelf)
  else .ok h

/-- A trigger that fires becomes the command it held (R200). -/
def EngCmd.fire (c : EngCmd) (h : Held200) : EngCmd :=
  { c with op := h.op, desc := h.desc, opnd := h.opnd, sc := h.sc, flags := h.flags, snap := h.snap, trig := none }

/-- R189, R200, R350: a trigger whose threshold has passed already waits until the header of the block that it holds can be read. -/
def trigWaits (desc n : Nat) (s : State) : Bool :=
  match (acceptBytes s s.frame.core s.frame.ctx desc 56).res with
  | .ok body =>
    (match trigHeld s n ((s.me.eng n).issued + 1) body with
     | .ok h => decide (h.thresh ≤ (s.me.eng h.watch).tl) && tagWaits s s.frame.core s.frame.ctx h.desc
     | .error _ => false)
  | _ => false

/-- The gate of `trig`. -/
def trigGate (desc : Nat) (n : BitVec 3) (s : State) : Gate :=
  (engGate desc 56 n 0 false s).and (gateIf (trigWaits desc n.toNat s) .stall)

/-- R200: `trig` reads its block as it is accepted; a threshold already passed fires it at once. -/
def execTrig (d : BitVec 5) (n : BitVec 3) (s : State) : Out :=
  let desc := descOf d s
  behind (trigGate desc n s) s (fun s =>
    let f := s.frame
    let c := newCmd 0x16 desc 0 0 0 s
    let num := (s.me.eng n.toNat).issued + 1
    let c' := match (acceptBytes s f.core f.ctx desc 56).res with
      | .ok body =>
        (match trigHeld s n.toNat num body with
         | .ok h =>
           if h.thresh ≤ (s.me.eng h.watch).tl then
             { c.fire h with tag := (tagAt s f.core f.ctx h.desc).orElse (fun _ => c.tag)
                             selTab := if h.op = 9 then selTabNow s (pkgOf f.core) else [] }
           else { c with trig := some h }
         | .error e => { c with verdict := some e })
      | .bad e => { c with verdict := some e }
      | .wait => c
    accept n.toNat c' s)

def EngCtx.find (e : EngCtx) (num : Nat) : Option EngCmd := e.cmds.find? (fun c => c.num == num)

/-- TRIGGER_FIRE (R200): TL[W] has reached the threshold; the held command is queued as if issued now, once its block's header can be
read (R189, R350). R338: a context that comes to rest keeps its unfired triggers. -/
def execTriggerFire (s : State) : Out :=
  let ck := s.ev.core
  let x := s.ev.ctx
  let n := s.ev.ectx
  match (s.eng ck x n).find s.ev.num with
  | none => .next s
  | some c =>
    match c.trig with
    | none => .next s
    | some h =>
      if (s.eng ck x h.watch).tl < h.thresh || (s.ctx ck x).status == .resting || tagWaits s ck x h.desc then .next s
      else
        let tag := tagAt s ck x h.desc
        let c' := { c.fire h with late := true, at_ := s.free, tag := tag.orElse (fun _ => c.tag)
                                  selTab := if h.op = 9 then selTabNow s (pkgOf ck) else [] }
        let s1 := s.modCmd ck x n c.num (fun _ => c')
        .next (if tag.isSome then pushTag s1 ck x n c' else s1)

-- the end of a command

/-- R187: TL passes every completed number. -/
def advanceTl : Nat → EngCtx → EngCtx
  | 0, e => e
  | k + 1, e => if e.done.contains (e.tl + 1) then advanceTl k { e with tl := e.tl + 1, done := e.done.filter (· != e.tl + 1) } else e

/-- R187: a number completes. -/
def EngCtx.complete (e : EngCtx) (num : Nat) : EngCtx :=
  let e1 := { e with cmds := e.cmds.filter (fun c => c.num != num), done := e.done ++ [num] }
  advanceTl e1.done.length e1

/-- Table 7.2: the error record. -/
def errorRecord (s : State) (ck n : Nat) (c : EngCmd) (f : EngFail) : List Byte :=
  leBytes 8 c.num ++
  leBytes 8 (f.code % 256 + c.op % 64 * 2 ^ 8 + n % 8 * 2 ^ 16 + f.kind % 256 * 2 ^ 24 + f.index % 1024 * 2 ^ 32 +
    f.group % 8 * 2 ^ 42) ++
  leBytes 8 f.detail ++ leBytes 8 (s.devTime (pkgOf ck))

/-- R190: ERRADDR of a command: from the block it read, or from the header alone. -/
def errAddr (s : State) (ck x : Nat) (c : EngCmd) : Nat :=
  if 16 ≤ c.body.length then headerErr c.body
  else if c.desc = noBlock then 0
  else match (rdAligned s ck x c.desc 16 16).res with | .ok bs => headerErr bs | _ => 0

/-- R190, R350: the error record of a command has to wait for a page that migrates. -/
def recordWaits (s : State) (ck x n : Nat) (c0 : EngCmd) (f : EngFail) : Bool :=
  let c := { c0 with struck := [] }
  let a := errAddr s ck x c
  a != 0 && a % 32 == 0 && (checkWrites s ck x c [{ va := a, bytes := errorRecord s ck n c f }]).waits

/-- R190: write the error record, where it can be written. -/
def writeRecord (s : State) (ck x n : Nat) (c0 : EngCmd) (f : EngFail) : State :=
  let c := { c0 with struck := [] }
  let a := errAddr s ck x c
  if a = 0 || a % 32 != 0 then s
  else
    let ws : List EWrite := [{ va := a, bytes := errorRecord s ck n c f }]
    match (checkWrites s ck x c ws).res with
    | .ok _ => (performWrites s ck x c ws).1
    | _ => s

/-- R19, R187, R189: what a command held goes: its range-scoreboard entries, its place in its tag's order. -/
def releaseCmd (s : State) (ck x n num : Nat) : State :=
  let s1 := s.modCore ck (fun k => { k with ranges := k.ranges.filter (fun r => !(r.ctx == x && r.ectx == n && r.num == num)) })
  s1.modDie (dieOf ck) (fun d => { d with tagQ := d.tagQ.filter (fun t => !(t.2 == (ck, x, n, num))) })

/-- R187, R190: a command completes, or fails with a code; a context that rests for it may now have come to rest. -/
def finishCmd (s : State) (ck x n : Nat) (c : EngCmd) (f : Option EngFail) : State :=
  let s1 := match f with
    | none => s
    | some e => (writeRecord s ck x n c e).modCtx ck x (fun k => { k with terr := terrSet k.terr n })
  let s2 := releaseCmd s1 ck x n c.num
  settle (s2.modCtx ck x (fun k => k.setEng n ((k.eng n).complete c.num))) ck x

/-- R201, R350: the error record of the trigger that `cancel` names has to wait. -/
def cancelWaits (s : State) (ck x n num : Nat) : Bool :=
  match (s.eng ck x n).find num with
  | none => false
  | some c => c.trig.isSome && recordWaits s ck x n c (fail eCancelled)

/-- R201: `cancel` performs: an unfired trigger of that number on cN completes with CANCELLED. -/
def cancelTrigger (s : State) (ck x n num : Nat) : State :=
  match (s.eng ck x n).find num with
  | none => s
  | some c => if c.trig.isSome then finishCmd s ck x n c (some (fail eCancelled)) else s

end Sys2Proof.Machine
end

