-- ==== Sys2Proof/Machine/Scalar.lean ====
section
/-!
DEFINITION. The integer, immediate, constant, compare, predicate and special-register forms of the S slots (R99 to R107).
-/

namespace Sys2Proof.Machine

/-- R76: S-slot no-operation. -/
def execNop (s : State) : Out := .next s

/-- R100: an integer form of two sources, usable by the next bundle. -/
def intForm (op : Word → Word → Word) (d a b : BitVec 5) (s : State) : State := s.dstS d (op (s.srcS a) (s.src2 b))

/-- R100, R15: a form usable `dist` cycles later. -/
def lateForm (dist : Nat) (op : Word → Word → Word) (d a b : BitVec 5) (s : State) : State :=
  s.dstLate d (op (s.srcS a) (s.src2 b)) dist

/-- R100: a unary form. -/
def unaryForm (op : Word → Word) (d a : BitVec 5) (s : State) : State := s.dstS d (op (s.srcS a))

def execAdd (d a b : BitVec 5) (s : State) : Out := .next (intForm (· + ·) d a b s)
def execSub (d a b : BitVec 5) (s : State) : Out := .next (intForm (· - ·) d a b s)

/-- R15: distances of multiplication and division. -/
def mulDistance : Nat := 3
def divDistance : Nat := 20

/-- The high half of the exact product. -/
def mulHighS (a b : Word) : Word := (a.signExtend 128 * b.signExtend 128).extractLsb' 64 64
def mulHighU (a b : Word) : Word := (a.setWidth 128 * b.setWidth 128).extractLsb' 64 64

def execMul (d a b : BitVec 5) (s : State) : Out := .next (lateForm mulDistance (· * ·) d a b s)
def execMulh (d a b : BitVec 5) (s : State) : Out := .next (lateForm mulDistance mulHighS d a b s)
def execMulhn (d a b : BitVec 5) (s : State) : Out := .next (lateForm mulDistance mulHighU d a b s)

/-- R43: division at 64 bits. -/
def divS (a b : Word) : Word := if b = 0 then BitVec.allOnes 64 else BitVec.ofInt 64 (a.toInt.tdiv b.toInt)
def remS (a b : Word) : Word := if b = 0 then a else BitVec.ofInt 64 (a.toInt.tmod b.toInt)
def divU (a b : Word) : Word := if b = 0 then BitVec.allOnes 64 else a / b
def remU (a b : Word) : Word := if b = 0 then a else a % b

def execDiv (d a b : BitVec 5) (s : State) : Out := .next (lateForm divDistance divS d a b s)
def execDivn (d a b : BitVec 5) (s : State) : Out := .next (lateForm divDistance divU d a b s)
def execRem (d a b : BitVec 5) (s : State) : Out := .next (lateForm divDistance remS d a b s)
def execRemn (d a b : BitVec 5) (s : State) : Out := .next (lateForm divDistance remU d a b s)

def execAnd (d a b : BitVec 5) (s : State) : Out := .next (intForm (· &&& ·) d a b s)
def execOr (d a b : BitVec 5) (s : State) : Out := .next (intForm (· ||| ·) d a b s)
def execXor (d a b : BitVec 5) (s : State) : Out := .next (intForm (· ^^^ ·) d a b s)
def execAndn (d a b : BitVec 5) (s : State) : Out := .next (intForm (fun x y => x &&& ~~~ y) d a b s)

/-- R99: bits [5:0] of a shift amount. -/
def shamt (b : Word) : Nat := b.toNat % 64

def execShl (d a b : BitVec 5) (s : State) : Out := .next (intForm (fun x y => x <<< shamt y) d a b s)
def execShrl (d a b : BitVec 5) (s : State) : Out := .next (intForm (fun x y => x >>> shamt y) d a b s)
def execShra (d a b : BitVec 5) (s : State) : Out := .next (intForm (fun x y => x.sshiftRight (shamt y)) d a b s)
def execRotl (d a b : BitVec 5) (s : State) : Out := .next (intForm (fun x y => x.rotateLeft (shamt y)) d a b s)

def minS (a b : Word) : Word := if a.sle b then a else b
def maxS (a b : Word) : Word := if a.sle b then b else a
def minU (a b : Word) : Word := if a ≤ b then a else b
def maxU (a b : Word) : Word := if a ≤ b then b else a

def execMin (d a b : BitVec 5) (s : State) : Out := .next (intForm minS d a b s)
def execMax (d a b : BitVec 5) (s : State) : Out := .next (intForm maxS d a b s)
def execMinn (d a b : BitVec 5) (s : State) : Out := .next (intForm minU d a b s)
def execMaxn (d a b : BitVec 5) (s : State) : Out := .next (intForm maxU d a b s)

/-- Zeros above the highest one bit of `n` bits of a value, counted from bit n − 1. -/
def leadZeros (v : Nat) : Nat → Nat
  | 0 => 0
  | n + 1 => if v.testBit n then 0 else leadZeros v n + 1

/-- Zeros below the lowest one bit of a value, counted over `n` bits. -/
def trailZeros : Nat → Nat → Nat
  | _, 0 => 0
  | v, n + 1 => if v % 2 = 1 then 0 else trailZeros (v / 2) n + 1

/-- One bits of a value among `n`. -/
def oneBits : Nat → Nat → Nat
  | _, 0 => 0
  | v, n + 1 => v % 2 + oneBits (v / 2) n

def execClz (d a : BitVec 5) (s : State) : Out := .next (unaryForm (fun x => BitVec.ofNat 64 (leadZeros x.toNat 64)) d a s)
def execCtz (d a : BitVec 5) (s : State) : Out := .next (unaryForm (fun x => BitVec.ofNat 64 (trailZeros x.toNat 64)) d a s)
def execPopc (d a : BitVec 5) (s : State) : Out := .next (unaryForm (fun x => BitVec.ofNat 64 (oneBits x.toNat 64)) d a s)

/-- R101: add with carry. -/
def execAddx (d a b : BitVec 5) (k c : BitVec 3) (s : State) : Out :=
  let sum := addxSum (s.srcS a) (s.src2 b) (s.srcP c)
  .next ((s.dstS d (sum.setWidth 64)).dstP k (sum.getLsbD 64))

/-- R101: select. -/
def execSel (d a b : BitVec 5) (c : BitVec 3) (s : State) : Out :=
  .next (s.dstS d (if s.srcP c then s.srcS a else s.src2 b))

/-- R102: an immediate form. -/
def immForm (op : Word → Word → Word) (d a : BitVec 5) (imm : Word) (s : State) : State := s.dstS d (op (s.srcS a) imm)

def execAddi (d a : BitVec 5) (i : BitVec 16) (s : State) : Out := .next (immForm (· + ·) d a (i.signExtend 64) s)
def execAndi (d a : BitVec 5) (i : BitVec 16) (s : State) : Out := .next (immForm (· &&& ·) d a (i.setWidth 64) s)
def execOri (d a : BitVec 5) (i : BitVec 16) (s : State) : Out := .next (immForm (· ||| ·) d a (i.setWidth 64) s)
def execXori (d a : BitVec 5) (i : BitVec 16) (s : State) : Out := .next (immForm (· ^^^ ·) d a (i.setWidth 64) s)
def execShli (d a : BitVec 5) (i : BitVec 6) (s : State) : Out :=
  .next (immForm (fun x y => x <<< shamt y) d a (i.setWidth 64) s)
def execShrli (d a : BitVec 5) (i : BitVec 6) (s : State) : Out :=
  .next (immForm (fun x y => x >>> shamt y) d a (i.setWidth 64) s)
def execShrai (d a : BitVec 5) (i : BitVec 6) (s : State) : Out :=
  .next (immForm (fun x y => x.sshiftRight (shamt y)) d a (i.setWidth 64) s)

/-- R103: the immediate, or the literal where LO names the slot, sign-extended. -/
def execLi (d : BitVec 5) (i : BitVec 16) (s : State) : Out :=
  .next (s.dstS d (if s.frame.hasLit then s.frame.lit.signExtend 64 else i.signExtend 64))

/-- R103: the high half from the immediate or the literal, the low half of A kept. -/
def execLih (d a : BitVec 5) (i : BitVec 16) (s : State) : Out :=
  let high : BitVec 32 := if s.frame.hasLit then s.frame.lit else i.setWidth 32
  .next (s.dstS d (high ++ (s.srcS a).setWidth 32 : BitVec 64))

/-- R104: a compare against a register. -/
def execCmpCc (p : BitVec 3) (a b : BitVec 5) (c : BitVec 4) (s : State) : Out :=
  .next (s.dstP p (condHolds c.toNat (s.srcS a) (s.srcS b)))

/-- R104: a compare against the literal. -/
def execCmpiCc (p : BitVec 3) (a : BitVec 5) (c : BitVec 4) (s : State) : Out :=
  .next (s.dstP p (condHolds c.toNat (s.srcS a) (s.frame.lit.signExtend 64)))

/-- R105: predicate logic. -/
def predForm (op : Bool → Bool → Bool) (d a b : BitVec 3) (s : State) : State := s.dstP d (op (s.srcP a) (s.srcP b))

def execPand (d a b : BitVec 3) (s : State) : Out := .next (predForm (· && ·) d a b s)
def execPor (d a b : BitVec 3) (s : State) : Out := .next (predForm (· || ·) d a b s)
def execPxor (d a b : BitVec 3) (s : State) : Out := .next (predForm (· != ·) d a b s)
def execPnot (d a : BitVec 3) (s : State) : Out := .next (s.dstP d (!s.srcP a))

/-- Table 4.5: CORE_ID. -/
def coreId (s : State) (ck : Nat) : Word :=
  BitVec.ofNat 64 (s.physCore ck % 256 * 2 ^ 32 + pkgOf ck % 512 * 2 ^ 16 + pcoreOf ck)

/-- Bytes 8j to 8j + 7 of the qubit map of a die's engine; 0xC0 in every byte where it holds no state (R203). -/
def qmapWord (d : Die) (j : Nat) : Word :=
  match d.amp with
  | none => 0xC0C0C0C0C0C0C0C0
  | some a => BitVec.ofNat 64 (leNat ((a.qmap.drop (8 * j)).take 8))

/-- R106, Table 4.4: the value of a special register as it stood before the bundle; DEV_TIME is the package's at the present, as BAR0
reads it (R330). -/
def specialValue (s : State) (n : Nat) : Word :=
  let f := s.frame
  let c := f.was
  let p := pkgOf f.core
  if n = 0x0000 then coreId s f.core
  else if n = 0x0001 then BitVec.ofNat 64 f.ctx
  else if n = 0x0002 then BitVec.ofNat 64 (s.devTime p)
  else if n = 0x0003 then c.devFrac.setWidth 64
  else if n = 0x0004 then BitVec.ofNat 64 ((s.core f.core).cycle - (s.pkg p).bootCycle)
  else if n = 0x0008 then (s.pkg p).regs.get 0x20 0
  else if n = 0x0009 then (s.pkg p).regs.get 0x28 0
  else if n = 0x0010 then f.old.rngKey
  else if n = 0x0011 then BitVec.ofNat 64 f.old.rfill
  else if n = 0x0018 then c.fstat
  else if n = 0x0019 then c.terr.setWidth 64
  else if n = 0x0020 then c.item
  else if n = 0x0021 then c.frame
  else if n = 0x0022 ∨ n = 0x0023 ∨ n = 0x0024 then c.args.get (n - 0x22) 0
  else if n = 0x0025 then BitVec.ofNat 64 c.prio
  else if n = 0x0026 then BitVec.ofNat 64 c.scopeTab
  else if 0x0028 ≤ n ∧ n ≤ 0x002D then
    let l := f.old.loops.get (n - 0x28) {}
    if l.run then BitVec.ofNat 64 l.iter else 0
  else if 0x0030 ≤ n ∧ n ≤ 0x0035 then qmapWord (s.die (dieOf f.core)) (n - 0x30)
  else if n = 0x0038 then c.tcause
  else 0

/-- R106: read a special register; DEV_TIME latches DEV_FRAC. -/
def execGets (d : BitVec 5) (n : BitVec 16) (s : State) : Out :=
  let s1 := s.dstS d (specialValue s n.toNat)
  .next (if n = 0x0002 then s1.modMe (fun c => { c with devFrac := s.devFrac (pkgOf s.frame.core) }) else s1)

/-- R107: PRIO is clamped to the launch's priority. -/
def clampPrio (s : State) (v : Word) : Nat :=
  match s.launchOf s.frame.core s.frame.ctx with
  | some l => min (v.toNat % 128) l.prio
  | none => v.toNat % 128

/-- R106, R107: write a special register. -/
def execPuts (a : BitVec 5) (n : BitVec 16) (s : State) : Out :=
  let v := s.srcS a
  .next (s.modMe (fun c =>
    if n = 0x0010 then { c with arch := { c.arch with rngKey := v } }
    else if n = 0x0018 then { c with fstat := fstatWrite v }
    else if n = 0x0019 then { c with terr := terrWrite c.terr v }
    else if n = 0x0021 then { c with frame := v }
    else if n = 0x0022 ∨ n = 0x0023 ∨ n = 0x0024 then { c with args := c.args.set (n.toNat - 0x22) v }
    else if n = 0x0025 then { c with prio := clampPrio s v }
    else c))

end Sys2Proof.Machine
end

