-- ==== Sys2Proof/WellFormed.lean ====
section
/-!
DEFINITION. Well-formed instructions: the field values of a slot syllable that no rule makes ILLEGAL_BUNDLE (R74 and
each form's own rule), the entry encodings that a table write accepts (R83 and each operation's own rule). The checks that need the bundle around a form
(literal, slot, duplicate destinations) or the machine's state stand in Machine/Bundle.lean.
-/

namespace Sys2Proof

/-- R106, Table 4.4: a number that names a special register. -/
def isSpecial (n : Nat) : Bool :=
  n ≤ 0x4 || n == 0x8 || n == 0x9 || n == 0x10 || n == 0x11 || n == 0x18 || n == 0x19 ||
  (0x20 ≤ n && n ≤ 0x26) || (0x28 ≤ n && n ≤ 0x2D) || (0x30 ≤ n && n ≤ 0x35) || n == 0x38

/-- R106, Table 4.4: a special register that `puts` may name (RW or W1C). -/
def isWritableSpecial (n : Nat) : Bool :=
  n == 0x10 || n == 0x18 || n == 0x19 || (0x21 ≤ n && n ≤ 0x25)

/-- R14: s31 is no destination. -/
def destOk (d : BitVec 5) : Bool := d != 31

/-- R74, R127: sc7 is illegal, and a relaxed form with no other use for SC has SC = 0. -/
def scopeOk (s : BitVec 5) : Bool := s != 7
def ordScopeOk (s : BitVec 5) (o : BitVec 3) : Bool := s != 7 && (o != 0 || s == 0)

/-- R128: the ORD codes of Table 5.2. -/
def ordAcq (o : BitVec 3) : Bool := o == 0 || o == 1
def ordRel (o : BitVec 3) : Bool := o == 0 || o == 2
def ordAny (o : BitVec 3) : Bool := o.toNat ≤ 3

/-- Common checks of a load (R129). -/
def loadOk (d s : BitVec 5) (o : BitVec 3) : Bool := destOk d && ordAcq o && ordScopeOk s o
/-- Common checks of a store (R130). -/
def storeOk (s : BitVec 5) (o : BitVec 3) : Bool := ordRel o && ordScopeOk s o
/-- Common checks of an `atom` form other than `cas` (R137). -/
def atomOk (d s : BitVec 5) (z o : BitVec 3) : Bool := destOk d && ordAny o && scopeOk s && z.toNat ≤ 1
/-- Common checks of a `red` form (R137). -/
def redOk (s : BitVec 5) (z o : BitVec 3) : Bool := ordRel o && scopeOk s && z.toNat ≤ 1

/-- R138: the operand registers of `atom.cas`. -/
def casOk (d x : BitVec 5) (z : BitVec 3) : Bool :=
  if z == 2 then x.toNat % 4 == 0 && 4 ≤ x.toNat && x.toNat ≤ 28 && d.toNat % 2 == 0 && d.toNat ≤ 28
  else z.toNat ≤ 1 && x.toNat % 2 == 0 && 2 ≤ x.toNat && x.toNat ≤ 28

/-- R185: DESC and OPND never name s31. -/
def engOk (d : BitVec 5) : Bool := d != 0 && d != 31

/-- R81, Table 3.7: an operand code that is no source. -/
def srcOk (x : BitVec 6) : Bool := x.toNat < 56 || 60 ≤ x.toNat
/-- R81, Table 3.7: a vector register, an output queue or `zero` as destination. -/
def dstOk (x : BitVec 6) : Bool := x.toNat < 52 || x == 63
def noOp (x : BitVec 6) : Bool := x == 63

namespace Entry

/-- Bits [lo + n − 1 : lo] of MOD. -/
def modBits (e : Entry) (lo n : Nat) : Nat := e.mod.toNat / 2 ^ lo % 2 ^ n

/-- MOD[2:0], the rounding mode where an operation has one (R155). -/
def rm (e : Entry) : Nat := e.modBits 0 3
/-- MOD[20:18], the tile of a matrix operation (R180 to R184). -/
def tile (e : Entry) : Nat := e.modBits 18 3
/-- MOD[14:12] + 1, the rows of a register block (R182). -/
def rows (e : Entry) : Nat := e.modBits 12 3 + 1
/-- MOD[11:9] + 1, the columns of a register block (R182). -/
def cols (e : Entry) : Nat := e.modBits 9 3 + 1

def nobank (e : Entry) : Bool := e.bank == 0

/-- Three sources, vector or queue destination, no bank. -/
def ops3 (e : Entry) : Bool := dstOk e.d && srcOk e.a && srcOk e.b && srcOk e.c && e.nobank
def ops2 (e : Entry) : Bool := dstOk e.d && srcOk e.a && srcOk e.b && noOp e.c && e.nobank
def ops1 (e : Entry) : Bool := dstOk e.d && srcOk e.a && noOp e.b && noOp e.c && e.nobank
def ops0 (e : Entry) : Bool := dstOk e.d && noOp e.a && noOp e.b && noOp e.c && e.nobank

/-- FMT and MOD zero. -/
def plain (e : Entry) : Bool := e.fmt == 0 && e.mod == 0
/-- FMT zero and MOD a rounding mode other than SR (R160). -/
def rounded (e : Entry) : Bool := e.fmt == 0 && e.mod.toNat ≤ 3

/-- R162: a lane format code of `vcvt`. -/
def laneFormat (f : Nat) : Bool := f ≤ 5 || (8 ≤ f && f ≤ 11)

/-- R162, R60: a conversion that cannot round: an exact widening of floats, L6 to FP32, or between integers (DEDUCED: R162's
parenthesis names only integer widening; a narrowing or a change of sign only saturates and cannot round either, log entry
37). -/
def cvtExact (s d : Nat) : Bool :=
  (8 ≤ s && 8 ≤ d) ||
  (d == 0 && s ≤ 5) || ((d == 2 || d == 1) && (s == 3 || s == 4))

def vcvtOk (e : Entry) : Bool :=
  let s := e.modBits 17 5; let d := e.modBits 12 5
  e.ops1 && e.fmt == 0 && e.modBits 3 9 == 0 && e.rm ≤ 4 && laneFormat s && laneFormat d && s != d &&
  (s != 5 || d == 0) && (d != 5 || (s == 0 && e.rm == 0)) && !(e.rm == 4 && cvtExact s d)

def vquantOk (e : Entry) : Bool :=
  (e.d.toNat < 48 || e.d == 63) && e.ops1 && e.mask == 0 && e.mod.toNat ≤ 4 &&
  ((e.fmt == 6 && e.rm == 0) || ((e.fmt == 2 || e.fmt == 3) && (e.rm == 0 || e.rm == 4)))

def vdequantOk (e : Entry) : Bool :=
  e.ops1 && (e.fmt == 2 || e.fmt == 3 || e.fmt == 6) && e.mod.toNat ≤ 3

def vpackOk (e : Entry) : Bool :=
  dstOk e.d && srcOk e.a && srcOk e.b && e.nobank && e.modBits 4 18 == 0 && e.rm ≤ 4 &&
  (if e.fmt.toNat ≤ 1 then noOp e.c && e.modBits 3 1 == 0
   else srcOk e.c && (e.fmt.toNat ≤ 3 || (e.fmt.toNat ≤ 5 && e.rm == 0)))

def vunpackOk (e : Entry) : Bool :=
  e.ops1 && e.fmt != 7 && e.mod.toNat ≤ 3 && (2 ≤ e.fmt.toNat || e.mod.toNat ≤ 1)

/-- R169: the fields of `vreduce.op` and `vscan.op`; `ex` says whether MOD[4] may be set. -/
def reduceOk (e : Entry) (ex : Bool) : Bool :=
  e.ops1 && e.fmt == 0 && e.modBits 0 4 ≤ 10 && (ex || e.modBits 4 1 == 0) && e.modBits 8 14 == 0 &&
  (if e.modBits 0 4 == 8 then e.modBits 5 3 ≤ 3 else e.modBits 5 3 == 0)

/-- R170: a mask number in an operand field. -/
def maskOp (x : BitVec 6) : Bool := x.toNat < 8
def maskPlain (e : Entry) : Bool := e.mask == 0 && e.plain && e.nobank && maskOp e.d && noOp e.c

/-- R173: address fields of a row access. -/
def rowAddr (e : Entry) : Bool := e.fmt == 0 && e.modBits 0 9 == 0
/-- R173: address fields of an indexed access. -/
def idxAddr (e : Entry) : Bool := e.modBits 0 19 == 0

def ldRowOk (e : Entry) : Bool := dstOk e.d && noOp e.a && noOp e.b && noOp e.c && e.rowAddr
def stRowOk (e : Entry) : Bool := noOp e.d && srcOk e.a && noOp e.b && noOp e.c && e.rowAddr

def no4 (e : Entry) : Bool := noOp e.d && noOp e.a && noOp e.b && noOp e.c && e.nobank

def mmaOk (e : Entry) (sparse : Bool) : Bool :=
  e.no4 && e.fmt == 0 && e.mask == 0 && e.modBits 17 1 == 0 && e.modBits 8 2 == 0 &&
  (if sparse then e.modBits 21 1 == 1 else e.modBits 21 1 == 0 && e.modBits 10 7 == 0)

/-- R183: elements per lane of the result format N of `mdrain`; 0 for a refused format. -/
def drainElems (n : BitVec 3) : Nat :=
  if n == 0 || n == 1 then 2 else if n == 2 || n == 3 || n == 4 then 4 else if n == 7 then 1 else 0

def mdrainOk (e : Entry) : Bool :=
  e.d.toNat < 48 && noOp e.a && srcOk e.b && noOp e.c && e.nobank && drainElems e.fmt != 0 &&
  e.modBits 15 1 == 0 && e.modBits 3 6 == 0 && e.rm ≤ 4 && e.rows ≤ 6 && e.rows * e.cols * drainElems e.fmt == 8

def mfeedOk (e : Entry) : Bool :=
  noOp e.d && e.a.toNat < 48 && noOp e.b && noOp e.c && e.nobank && e.fmt == 0 && e.mask == 0 &&
  e.modBits 21 1 == 0 && e.modBits 15 3 == 0 && e.modBits 0 9 == 0 && e.rows ≤ 6 && e.rows * e.cols == 8

/-- R184: the block operation, MOD[17:15]. -/
def blkOp (e : Entry) : Nat := e.modBits 15 3

def vblkOk (e : Entry) : Bool :=
  e.d.toNat < 48 && e.a.toNat < 48 && noOp e.c && e.nobank && e.fmt == 0 && e.modBits 21 1 == 0 &&
  e.modBits 3 6 == 0 && e.blkOp ≤ 5 && e.rows ≤ 6 &&
  (if e.blkOp == 5 then noOp e.b && e.rows * e.cols == 8 else e.tile == 0 && (if e.blkOp == 4 then noOp e.b else srcOk e.b)) &&
  (if e.blkOp == 0 || e.blkOp == 1 || e.blkOp == 5 then e.rm ≤ 3 else e.rm == 0)

/-- R182: a register block fits the 6 by 8 vector grid (refusal kind 8). -/
def blockFits (origin : BitVec 6) (r c : Nat) : Bool :=
  origin.toNat < 48 && origin.toNat / 8 + r ≤ 6 && origin.toNat % 8 + c ≤ 8

end Entry

/-- The field values that no rule refuses. -/
def Instr.wf : Instr → Bool
  -- scalar slots
  | .nop => true
  | .add d _ _ | .sub d _ _ | .mul d _ _ | .mulh d _ _ | .mulhn d _ _ | .div d _ _ | .divn d _ _ | .rem d _ _
  | .remn d _ _ | .and d _ _ | .or d _ _ | .xor d _ _ | .andn d _ _ | .shl d _ _ | .shrl d _ _ | .shra d _ _
  | .rotl d _ _ | .min d _ _ | .max d _ _ | .minn d _ _ | .maxn d _ _ => destOk d
  | .clz d _ | .ctz d _ | .popc d _ => destOk d
  | .addx d _ _ _ _ => destOk d
  | .sel d _ _ _ => destOk d
  | .addi d _ _ | .andi d _ _ | .ori d _ _ | .xori d _ _ => destOk d
  | .shli d _ _ | .shrli d _ _ | .shrai d _ _ => destOk d
  | .li d _ => destOk d
  | .lih d _ _ => destOk d
  | .cmpCc _ _ _ c => c.toNat < 10
  | .cmpiCc _ _ c => c.toNat < 10
  | .pand _ _ _ | .por _ _ _ | .pxor _ _ _ | .pnot _ _ => true
  | .gets d n => destOk d && isSpecial n.toNat
  | .puts _ n => isWritableSpecial n.toNat
  | .br p n _ | .call p n _ => p != 0 || n == 0
  | .bri _ | .ret _ => true
  | .loop l _ f => l.toNat ≤ 5 && f != 0
  | .loopm l _ b f => l.toNat ≤ 5 && f != 0 && b != 7
  | .lstride d _ _ l => destOk d && l.toNat ≤ 5
  | .dispatch d _ b => destOk d && destOk b && (d != b || d == 0)
  | .yield | .yieldPark | .exit | .sluice => true
  | .trap _ => true
  | .waitt _ _ _ => true
  | .scopeSet n _ => 8 ≤ n.toNat
  | .scopeLoad n => 8 ≤ n.toNat
  -- address slot
  | .ldb d _ _ _ _ s o | .ldbn d _ _ _ _ s o | .ldh d _ _ _ _ s o | .ldhn d _ _ _ _ s o | .ldw d _ _ _ _ s o
  | .ldwn d _ _ _ _ s o | .ldd d _ _ _ _ s o => loadOk d s o
  | .stb _ _ _ _ s o | .sth _ _ _ _ s o | .stw _ _ _ _ s o | .std _ _ _ _ s o => storeOk s o
  | .ldfull d _ _ s o | .ldtake d _ _ s o => loadOk d s o
  | .stfill _ _ _ s o | .stforce _ _ _ s o => storeOk s o
  | .fetag d _ _ => destOk d
  | .feset _ _ _ => true
  | .atomAdd d _ _ z s o | .atomAnd d _ _ z s o | .atomOr d _ _ z s o | .atomXor d _ _ z s o | .atomMin d _ _ z s o
  | .atomMax d _ _ z s o | .atomMinn d _ _ z s o | .atomMaxn d _ _ z s o | .atomSwap d _ _ z s o => atomOk d s z o
  | .atomCas d _ x z s o => destOk d && ordAny o && scopeOk s && casOk d x z
  | .atomFadd d _ _ s o | .atomFmin d _ _ s o | .atomFmax d _ _ s o => destOk d && ordAny o && scopeOk s
  | .redAdd _ _ z s o | .redAnd _ _ z s o | .redOr _ _ z s o | .redXor _ _ z s o | .redMin _ _ z s o
  | .redMax _ _ z s o | .redMinn _ _ z s o | .redMaxn _ _ z s o => redOk s z o
  | .redFadd _ _ s o | .redFmin _ _ s o | .redFmax _ _ s o => ordRel o && scopeOk s
  | .fenceAcq s | .fenceRel s | .fenceAr s => scopeOk s
  | .qmark => true
  | .tktTake d _ s o => destOk d && ordAcq o && scopeOk s
  | .tktServe _ s o => ordRel o && scopeOk s
  | .tktWait _ _ s o => ordAcq o && scopeOk s
  | .barArrive l i s o => l.toNat ≤ 5 && (l != 0 || i == 0) && storeOk s o
  | .barWait l i s o => l.toNat ≤ 5 && (l != 0 || i == 0) && ordAcq o && ordScopeOk s o
  | .sbind k i b _ t => (k == 0 || i.toNat ≤ 3) && (t == 0 || b == 0)
  | .sstop k i _ | .srewind k i _ => k == 0 || i.toNat ≤ 3
  | .cbinit _ b _ t => t == 0 || b == 0
  | .cbadv _ k _ => k.toNat ≤ 5
  | .l1inv => true
  | .pref _ _ _ _ => true
  -- broadcast slot
  | .bx _ _ | .bxm _ _ _ => true
  -- engine slot
  | .copy d o _ s h | .copyx d o _ s h => engOk d && o != 31 && scopeOk s && (h == 1 || o == 0)
  | .gather d _ s | .scatter d _ s | .coll d _ s | .mldr d _ s | .mred d _ s | .route d _ s | .ltxOpen d _ s
  | .aeMap d _ s | .aeMapMatrices d _ s | .aeMapUnmap d _ s | .aeGate d _ s | .aeSwap d _ s | .aeNorm d _ s
  | .aeProj d _ s => engOk d && scopeOk s
  | .tload d _ | .imload d _ | .trig d _ => engOk d
  | .tseal d _ => d != 31
  | .smload d o _ | .tready d o _ => engOk d && o != 31
  | .ltxCommit d o _ s | .ltxAbort d o _ s => d != 31 && o != 31 && scopeOk s
  | .cancel d o _ => d != 31 && o != 31
  -- select slot
  | .xnop => true
  | .cload _ a b _ _ | .ctag _ a b _ | .cstore _ a b _ _ => a.toNat < 48 && b.toNat < 48
  | .cx g c j _ b => c.toNat + g.toNat ≤ 7 && j.toNat ≤ 5 && b.toNat ≤ j.toNat
  | .cclr g c => c.toNat + g.toNat ≤ 7
  | .rngseed _ a => a.toNat < 48
  | .rngctl _ _ => true
  -- group-table entries
  | .entryNop => true
  | .vadd e | .vsub e | .vmul e | .vand e | .vor e | .vxor e | .vshl e | .vshrl e | .vshra e => e.ops2 && e.plain
  | .vmulh e | .vmin e | .vmax e => e.ops2 && e.fmt.toNat ≤ 1 && e.mod == 0
  | .vmad e => e.ops3 && e.plain
  | .vdp4 e => e.ops3 && e.fmt.toNat ≤ 3 && e.mod == 0
  | .vabs e | .vneg e | .vpopc e | .vclz e => e.ops1 && e.plain
  | .vcmpCc e => e.ops2 && e.fmt == 0 && e.mod.toNat < 10
  | .vsel e => e.ops3 && e.plain
  | .vfadd e | .vfsub e | .vfmul e => e.ops2 && e.rounded
  | .vfma e => e.ops3 && e.rounded
  | .vfmin e | .vfmax e => e.ops2 && e.plain
  | .vfabs e | .vfrcp e | .vfrsq e | .vfexp2 e | .vflog2 e => e.ops1 && e.plain
  | .vfcmpCc e => e.ops2 && e.fmt == 0 && (e.mod.toNat ≤ 3 || e.mod == 6 || e.mod == 7)
  | .vcvt e => e.vcvtOk
  | .vquant e => e.vquantOk
  | .vdequant e => e.vdequantOk
  | .vpack e => e.vpackOk
  | .vunpack e => e.vunpackOk
  | .vlmul e => e.ops2 && e.fmt == 0 && e.mod.toNat ≤ 3
  | .vlsum e => e.ops3 && e.rounded
  | .vperm e => e.ops2 && e.plain
  | .vbcast e => e.ops1 && e.fmt == 0 && e.mod.toNat < 64
  | .vreduce e => e.reduceOk false
  | .vscan e => e.reduceOk true
  | .viota e => e.ops0 && e.plain
  | .mand e | .mor e => e.maskPlain && Entry.maskOp e.a && Entry.maskOp e.b
  | .mnot e => e.maskPlain && Entry.maskOp e.a && noOp e.b
  | .mset e => e.maskPlain && srcOk e.a && noOp e.b
  | .spld e | .spldFull e => e.ldRowOk
  | .spst e | .spstEmpty e => e.stRowOk
  | .spldx e => dstOk e.d && noOp e.a && srcOk e.b && noOp e.c && e.fmt == 0 && e.idxAddr
  | .spstx e => noOp e.d && noOp e.a && srcOk e.b && srcOk e.c && e.fmt == 0 && e.idxAddr
  | .spatomAdd e => dstOk e.d && noOp e.a && srcOk e.b && srcOk e.c && e.fmt.toNat ≤ 1 && e.idxAddr
  | .vshn e => (e.d == 56 || e.d == 57) && srcOk e.a && noOp e.b && noOp e.c && e.nobank && e.fmt == 0 &&
      e.mod.toNat < 48
  | .gadd e => e.no4 && e.fmt == 0 && e.modBits 20 2 == 0
  | .gli e => e.no4 && e.fmt == 0 && e.modBits 20 2 == 1
  | .gmov e => noOp e.d && srcOk e.a && noOp e.b && noOp e.c && e.nobank && e.fmt == 0 && e.modBits 20 2 == 2 &&
      e.modBits 5 12 == 0
  | .gmovVector e => e.ops0 && e.fmt == 0 && e.modBits 20 2 == 2 && e.modBits 0 17 == 65536
  | .mma e => e.mmaOk false
  | .mmaSp e => e.mmaOk true
  | .mzero e => e.no4 && e.fmt == 0 && e.mask == 0 && e.modBits 21 1 == 0 && e.modBits 0 18 == 0
  | .mdrain e => e.mdrainOk
  | .mfeed e => e.mfeedOk
  | .vblk e => e.vblkOk
  -- steps of the machine have no field
  | .bundleIssue | .selectorRotation | .resultWrite | .beatCountExpiry | .mmaBeat | .tileBusyClear
  | .columnStage | .checkpoint | .withheldStoreDrain | .releaseHandover | .storeAcknowledgement | .trapTaken
  | .raceReport | .loadReturn | .pageWalk | .migReread | .streamFetch | .outputQueueDrain | .rbqFillSlot
  | .l1invComplete | .fullEmptyService | .ticketResend | .barrierPhaseComplete | .engineCommandStart
  | .engineCommandComplete | .triggerFire | .tileFire | .windowRoundMerge | .memberAbsentTimeout
  | .collectiveTimeout | .ltxTimeout | .aeStateCommandPerform | .pickup | .stealRound | .gangCorePreparation
  | .gangPreparationTimeout | .gangRelease | .sluiceDecision | .sluiceSwap | .preemption | .contextSave
  | .patrolScrub | .rowSpare | .imPoisonRepair | .laneFault | .droopResponse | .thermalThrottle | .thermalTrip
  | .packageReset | .retirementMapUpdate | .frameReceived | .countWordPublish | .txFrameSend
  | .pollingSlotVisit | .frameBoundary | .agingTick | .queueUnbind | .queueTriggerFire | .notify | .queueEnable
  | .queueDisable | .nopCommand | .launch | .write | .abort | .requeue | .deviceEnable | .deviceDisable
  | .devTimeRead | .timeSet | .fwLoad | .fwSwitch | .firmwareHandover | .ringEnable | .txEnable | .txprod
  | .registerWrite | .shootdown | .preemptCores | .preemptLaunch | .reopen | .coreOut | .spareIn | .dieOut
  | .bankSpare | .portOut | .portIn | .portSpareLane | .scrub | .attest | .i3cDynamicAddress | .i3cPrivateWrite
  | .i3cPrivateRead | .engineCommandProgress | .bar4WindowAccess | .packageUnreachable | .packageRejoins
  | .powerLoss | .imFetchAhead => true

end Sys2Proof
end

