-- ==== Sys2Proof/Machine/Lanes.lean ====
section
/-!
DEFINITION. How a group-table entry is checked and executed (R25, R26, R59, R153, R154), and the integer, mask, lane-movement,
reduction and group-register entries (R157 to R159, R168 to R170, R176, R178).
-/

namespace Sys2Proof.Machine

-- what an entry finds at issue

/-- R25, R147: an operand code that reads an input latch. -/
def latchGate (s : State) (code : BitVec 6) : Gate :=
  let c := code.toNat
  if c < 48 ∨ 56 ≤ c then .go
  else
    let f := s.frame
    let key := 8 * f.grp + (c - 48)
    match f.old.latches.find key with
    | none => .trap cStream
    | some b =>
      if b.desc.entries ≤ b.pos then .trap cStream
      else
        match f.was.latchHead f.old key with
        | none => .block .latch
        | some e => gateIf (e.fault != 0) (.trap e.fault)

/-- Table 4.4: CYCLE of a core. -/
def cycleCount (s : State) (ck : Nat) : Nat := (s.core ck).cycle - (s.pkg (pkgOf ck)).bootCycle

/-- R214: an entry of a context's RBQ has been filled in the cycle that its core is in; it may be read from the next. -/
def filledNow (s : State) (ck x : Nat) : Bool :=
  let k := s.core ck
  k.rngAt == cycleCount s ck + 1 && k.rngLast == x

/-- R214: entries of the RBQ of the bundle's context that may be read in this cycle. -/
def rbqReady (s : State) : Nat := s.frame.old.rbq.length - (if filledNow s s.frame.core s.frame.ctx then 1 else 0)

/-- R59, R214: an entry that reads the RBQ. -/
def rbqGate (s : State) (reads : Bool) : Gate :=
  gateIf (reads && rbqReady s == 0) (if s.frame.old.rngOn || !s.frame.old.rbq.isEmpty then .stall else .trap cStream)

/-- R26: entries of an output queue that are held or released and not yet drained. -/
def queueHeld (c : Ctx) (g k : Nat) : Nat :=
  let mine (h : Held) := h.group == g && h.queue == k
  (c.arch.held.filter mine).length + ((c.released.filterMap Released.entry?).filter mine).length

/-- R147: the recorded cause of the queue that a destination code names. -/
def destFault (s : State) (d : BitVec 6) : Nat :=
  if d.toNat < 48 ∨ 52 ≤ d.toNat then 0 else s.frame.was.qFault.get (8 * s.frame.grp + (d.toNat - 48)) 0

/-- R26, R147: a destination code that pushes an output queue. -/
def queueGate (s : State) (d : BitVec 6) : Gate :=
  let c := d.toNat
  if c < 48 ∨ 52 ≤ c then .go
  else
    let f := s.frame
    match f.old.queues.find (8 * f.grp + (c - 48)) with
    | none => .trap cStream
    | some b =>
      if destFault s d != 0 then .trap (destFault s d)
      else if b.desc.entries ≤ b.pos then .trap cStream
      else gateIf (decide (Config.queueEntries ≤ queueHeld f.was f.grp (c - 48))) (.block .queue)

/-- R359: keys of marks of a context's scalar registers, and of a group's masks and address registers. -/
def scalarMark (x r : Nat) : Nat := 1024 * x + 512 + r
def maskMark (x g k : Nat) : Nat := 1024 * x + 544 + 8 * g + k
def gregMark (x g k : Nat) : Nat := 1024 * x + 608 + 8 * g + k

/-- R359: something of a register or tile is marked uncorrectable. -/
def Core.regBad (c : Core) (key : Nat) : Bool := (c.regUE.find key).isSome

/-- R359: lanes of a register are written: it stays marked where others are. -/
def Core.cleanReg (c : Core) (key : Nat) (lanes : LaneMask) : Core :=
  match c.regUE.find key with
  | none => c
  | some m => { c with regUE := if m &&& ~~~lanes = 0 then c.regUE.erase key else c.regUE.set key (m &&& ~~~lanes) }

/-- R359: a register or tile (48 + t) of a group is marked uncorrectable. -/
def regMarked (s : State) (i : Nat) : Bool := s.myCore.regBad (1024 * s.frame.ctx + 64 * s.frame.grp + i)

/-- R359: an entry that reads a marked register. -/
def markGate (s : State) (code : BitVec 6) : Gate := gateIf (decide (code.toNat < 48) && regMarked s code.toNat) (.trap cData)

/-- The gate of an entry: its operands, the RBQ when `sr` says that it rounds stochastically, and its own checks. -/
def entGate (e : Entry) (sr : Bool) (own : List Gate) (s : State) : Gate :=
  Gate.pick (own ++ [markGate s e.a, markGate s e.b, markGate s e.c, latchGate s e.a, latchGate s e.b, latchGate s e.c,
    queueGate s e.d,
    rbqGate s (sr || e.a == 61 || e.b == 61 || e.c == 61)])

/-- An entry behind its gate; a queue's recorded fault is raised once. -/
def entForm (e : Entry) (sr : Bool) (own : List Gate) (go : State → State) (s : State) : Out :=
  let g := entGate e sr own s
  let s0 := if destFault s e.d != 0 && g == .trap (destFault s e.d) then
      clearFaults [8 * s.frame.grp + (e.d.toNat - 48)] s
    else s
  behind g s0 go

/-- R82: the all-zero entry does nothing. -/
def execEntryNop (s : State) : Out := .next s

-- lane-wise forms

/-- A lane-wise form of one source. -/
def lane1 (f : Lane → Lane) (e : Entry) (s : State) : Out :=
  entForm e false [] (fun s =>
    let a := s.entSrc e.a
    s.emitLanes e (fun l => f (laneOf a l))) s

/-- A lane-wise form of two sources. -/
def lane2 (f : Lane → Lane → Lane) (e : Entry) (s : State) : Out :=
  entForm e false [] (fun s =>
    let a := s.entSrc e.a
    let b := s.entSrc e.b
    s.emitLanes e (fun l => f (laneOf a l) (laneOf b l))) s

/-- A lane-wise form of three sources. -/
def lane3 (f : Lane → Lane → Lane → Lane) (e : Entry) (s : State) : Out :=
  entForm e false [] (fun s =>
    let a := s.entSrc e.a
    let b := s.entSrc e.b
    let c := s.entSrc e.c
    s.emitLanes e (fun l => f (laneOf a l) (laneOf b l) (laneOf c l))) s

/-- Table 6.2: FMT 001 selects unsigned operands. -/
def unsignedOps (e : Entry) : Bool := e.fmt == 1

/-- Table 6.2: bits [63:32] of the product. -/
def mulHigh32 (unsigned : Bool) (a b : Lane) : Lane :=
  if unsigned then (a.setWidth 64 * b.setWidth 64).extractLsb' 32 32
  else (a.signExtend 64 * b.signExtend 64).extractLsb' 32 32

/-- Table 6.2: the shift amount of a lane. -/
def shamt5 (b : Lane) : Nat := b.toNat % 32

def execVadd (e : Entry) (s : State) : Out := lane2 (· + ·) e s
def execVsub (e : Entry) (s : State) : Out := lane2 (· - ·) e s
def execVmul (e : Entry) (s : State) : Out := lane2 (· * ·) e s
def execVmulh (e : Entry) (s : State) : Out := lane2 (mulHigh32 (unsignedOps e)) e s
def execVmad (e : Entry) (s : State) : Out := lane3 (fun a b c => a * b + c) e s
def execVand (e : Entry) (s : State) : Out := lane2 (· &&& ·) e s
def execVor (e : Entry) (s : State) : Out := lane2 (· ||| ·) e s
def execVxor (e : Entry) (s : State) : Out := lane2 (· ^^^ ·) e s
def execVshl (e : Entry) (s : State) : Out := lane2 (fun a b => a <<< shamt5 b) e s
def execVshrl (e : Entry) (s : State) : Out := lane2 (fun a b => a >>> shamt5 b) e s
def execVshra (e : Entry) (s : State) : Out := lane2 (fun a b => a.sshiftRight (shamt5 b)) e s

/-- Table 6.2: minimum and maximum, signed or unsigned. -/
def min32 (unsigned : Bool) (a b : Lane) : Lane := if (if unsigned then a.ule b else a.sle b) then a else b
def max32 (unsigned : Bool) (a b : Lane) : Lane := if (if unsigned then a.ule b else a.sle b) then b else a

def execVmin (e : Entry) (s : State) : Out := lane2 (min32 (unsignedOps e)) e s
def execVmax (e : Entry) (s : State) : Out := lane2 (max32 (unsignedOps e)) e s

/-- Table 6.2: |A|, with −2^31 for −2^31. -/
def abs32 (a : Lane) : Lane := if a.msb then -a else a

def execVabs (e : Entry) (s : State) : Out := lane1 abs32 e s
def execVneg (e : Entry) (s : State) : Out := lane1 (fun a => -a) e s
def execVpopc (e : Entry) (s : State) : Out := lane1 (fun a => BitVec.ofNat 32 (oneBits a.toNat 32)) e s
def execVclz (e : Entry) (s : State) : Out := lane1 (fun a => BitVec.ofNat 32 (leadZeros a.toNat 32)) e s

/-- R158: byte j of a lane widened to 32 bits. -/
def byte32 (signed : Bool) (a : Lane) (j : Nat) : Lane :=
  let b := a.extractLsb' (8 * j) 8
  if signed then b.signExtend 32 else b.setWidth 32

/-- R158: C plus four byte products. -/
def dp4 (sa sb : Bool) (a b c : Lane) : Lane :=
  c + byte32 sa a 0 * byte32 sb b 0 + byte32 sa a 1 * byte32 sb b 1 + byte32 sa a 2 * byte32 sb b 2 +
    byte32 sa a 3 * byte32 sb b 3

def execVdp4 (e : Entry) (s : State) : Out :=
  lane3 (dp4 (e.fmt == 0 || e.fmt == 2) (e.fmt == 0 || e.fmt == 3)) e s

/-- R159: a truth value as a lane. -/
def boolLane (b : Bool) : Lane := if b then BitVec.allOnes 32 else 0

def execVcmpCc (e : Entry) (s : State) : Out := lane2 (fun a b => boolLane (condHolds (e.modBits 0 4) a b)) e s
def execVsel (e : Entry) (s : State) : Out := lane3 (fun a b c => if c = 0 then b else a) e s

-- lane movement

def execVperm (e : Entry) (s : State) : Out :=
  entForm e false [] (fun s =>
    let a := s.entSrc e.a
    let b := s.entSrc e.b
    s.emitLanes e (fun l => laneOf a (shamt5 (laneOf b l)))) s

/-- R168: the lane that `vbcast` reads. -/
def bcastLane (s : State) (e : Entry) : Nat := if e.modBits 5 1 = 1 then s.frame.arg.toNat % 32 else e.modBits 0 5

def execVbcast (e : Entry) (s : State) : Out :=
  entForm e false [] (fun s =>
    let a := s.entSrc e.a
    s.emitLanes e (fun _ => laneOf a (bcastLane s e))) s

/-- R168: set bits of a mask below lane `l`. -/
def bitsBelow (m : LaneMask) (l : Nat) : Nat := oneBits (m.toNat % 2 ^ l) 32

/-- R168: every lane is written. -/
def execViota (e : Entry) (s : State) : Out :=
  entForm e false [] (fun s =>
    s.emit e.d (vregOf (fun l => BitVec.ofNat 32 (bitsBelow (s.lanes e) l))) (BitVec.allOnes 32)) s

-- reductions and scans

/-- R169: one step of a reduction by operation code and rounding mode. -/
def reduceStep (op rm : Nat) (a b : Lane) : Lane :=
  if op = 0 then a + b else if op = 1 then a &&& b else if op = 2 then a ||| b else if op = 3 then a ^^^ b
  else if op = 4 then min32 false a b else if op = 5 then max32 false a b
  else if op = 6 then min32 true a b else if op = 7 then max32 true a b
  else if op = 8 then BitVec.ofNat 32 (addF rm a.toNat b.toNat)
  else BitVec.ofNat 32 (minmaxF (op == 10) a.toNat b.toNat)

/-- Active lanes in ascending order. -/
def activeLanes (m : LaneMask) : List Nat := (List.range 32).filter (fun l => m.getLsbD l)

/-- R64: accumulate over lanes. One lane alone, as the first of a scan, is taken as it stands, a NaN too (DESIGN CHOICE, log entry 129). -/
def reduceLanes (op rm : Nat) (a : VReg) : List Nat → Lane
  | [] => 0
  | l :: t => t.foldl (fun acc i => reduceStep op rm acc (laneOf a i)) (laneOf a l)

/-- R169: the result goes to all 32 lanes. -/
def execVreduce (e : Entry) (s : State) : Out :=
  entForm e false [] (fun s =>
    let r := reduceLanes (e.modBits 0 4) (e.modBits 5 3) (s.entSrc e.a) (activeLanes (s.lanes e))
    s.emit e.d (vregOf (fun _ => r)) (BitVec.allOnes 32)) s

/-- R169: what lane `l` of a scan receives. -/
def scanLane (op rm : Nat) (ex : Bool) (a : VReg) (act : List Nat) (l : Nat) : Lane :=
  reduceLanes op rm a (act.filter (fun i => if ex then decide (i < l) else decide (i ≤ l)))

def execVscan (e : Entry) (s : State) : Out :=
  entForm e false [] (fun s =>
    let a := s.entSrc e.a
    let act := activeLanes (s.lanes e)
    s.emitLanes e (scanLane (e.modBits 0 4) (e.modBits 5 3) (e.modBits 4 1 == 1) a act)) s

-- masks

/-- R170: a mask named in an operand field. -/
def State.maskSrc (s : State) (code : BitVec 6) : LaneMask := s.frame.old.mask s.frame.grp code.toNat

def execMand (e : Entry) (s : State) : Out := .next (s.emitMask e.d (s.maskSrc e.a &&& s.maskSrc e.b))
def execMor (e : Entry) (s : State) : Out := .next (s.emitMask e.d (s.maskSrc e.a ||| s.maskSrc e.b))
def execMnot (e : Entry) (s : State) : Out := .next (s.emitMask e.d (~~~ s.maskSrc e.a))

/-- A mask built lane by lane. -/
def maskOf (f : Nat → Bool) : LaneMask :=
  BitVec.ofNat 32 (((List.range 32).map (fun l => if f l then 2 ^ l else 0)).sum)

def execMset (e : Entry) (s : State) : Out :=
  entForm e false [] (fun s =>
    let a := s.entSrc e.a
    s.emitMask e.d (maskOf (fun l => laneOf a l != 0))) s

-- neighbour shift

/-- R176: the group that a `vshn` of group `g` reaches. -/
def neighbour (g : Nat) (d : BitVec 6) : Nat := if d = 56 then (g + 7) % 8 else (g + 1) % 8

def execVshn (e : Entry) (s : State) : Out :=
  entForm e false [] (fun s =>
    let g := neighbour s.frame.grp e.d
    let t := e.modBits 0 6
    (s.modMe (fun c => { c with shadowV := addOnce (64 * g + t) c.shadowV })).expose
      { group := g, dest := .vreg t, data := s.entSrc e.a, lanes := s.lanes e, due := s.dueCycle }) s

-- group address registers

/-- R178: a group address register as it stood before the bundle. -/
def State.greg (s : State) (k : Nat) : BitVec 32 := s.frame.old.gregs.get (8 * s.frame.grp + k) 0

def execGadd (e : Entry) (s : State) : Out :=
  entForm e false [] (fun s =>
    s.emitGreg (e.modBits 17 3) (s.greg (e.modBits 14 3) + (BitVec.ofNat 14 (e.modBits 0 14)).signExtend 32)) s

def execGli (e : Entry) (s : State) : Out :=
  entForm e false [] (fun s => s.emitGreg (e.modBits 17 3) ((BitVec.ofNat 17 (e.modBits 0 17)).signExtend 32)) s

def execGmov (e : Entry) (s : State) : Out :=
  entForm e false [] (fun s => s.emitGreg (e.modBits 17 3) (laneOf (s.entSrc e.a) (e.modBits 0 5))) s

def execGmovVector (e : Entry) (s : State) : Out :=
  entForm e false [] (fun s => s.emitLanes e (fun _ => s.greg (e.modBits 17 3))) s

end Sys2Proof.Machine
end

