-- ==== Sys2Proof/Machine/LaneFloat.lean ====
section
/-!
DEFINITION. The floating-point entries (R160, R161, R67), conversions, quantisation and packing (R162 to R166, R68, R156) and
the L6 arithmetic entries (R167).
-/

namespace Sys2Proof.Machine

/-- A code as a lane. -/
def lane (n : Nat) : Lane := BitVec.ofNat 32 n

def execVfadd (e : Entry) (s : State) : Out := lane2 (fun a b => lane (addF e.rm a.toNat b.toNat)) e s
def execVfsub (e : Entry) (s : State) : Out := lane2 (fun a b => lane (subF e.rm a.toNat b.toNat)) e s
def execVfmul (e : Entry) (s : State) : Out := lane2 (fun a b => lane (mulF e.rm a.toNat b.toNat)) e s
def execVfma (e : Entry) (s : State) : Out :=
  lane3 (fun a b c => lane (fmaF e.rm a.toNat b.toNat c.toNat)) e s
def execVfmin (e : Entry) (s : State) : Out := lane2 (fun a b => lane (minmaxF false a.toNat b.toNat)) e s
def execVfmax (e : Entry) (s : State) : Out := lane2 (fun a b => lane (minmaxF true a.toNat b.toNat)) e s

/-- Table 6.3: the sign bit cleared; a NaN gives the canonical NaN. -/
def absF (a : Nat) : Nat := match val32 a with | .nan => fp32.nan | _ => a % 2 ^ 31

def execVfabs (e : Entry) (s : State) : Out := lane1 (fun a => lane (absF a.toNat)) e s
def execVfcmpCc (e : Entry) (s : State) : Out :=
  lane2 (fun a b => boolLane (compareF (e.modBits 0 4) a.toNat b.toNat)) e s
def execVfrcp (e : Entry) (s : State) : Out := lane1 (fun a => lane (rcpF a.toNat)) e s
def execVfrsq (e : Entry) (s : State) : Out := lane1 (fun a => lane (rsqF a.toNat)) e s
def execVfexp2 (e : Entry) (s : State) : Out := lane1 (fun a => lane (exp2F a.toNat)) e s
def execVflog2 (e : Entry) (s : State) : Out := lane1 (fun a => lane (log2F a.toNat)) e s

-- conversions

/-- R156: the random word of a lane, rotated right by `r` bits. -/
def State.randomWord (s : State) (l r : Nat) : Nat := ((s.frame.old.rbqWord s.frame.grp l).rotateRight r).toNat

/-- R155: the entry rounds stochastically. -/
def roundsSR (e : Entry) : Bool := e.rm == 4

def execVcvt (e : Entry) (s : State) : Out :=
  entForm e (roundsSR e) [] (fun s =>
    let a := s.entSrc e.a
    s.emitLanes e (fun l => lane (convert (e.modBits 17 5) (e.modBits 12 5) e.rm (s.randomWord l 0)
      (laneOf a l).toNat))) s

/-- Table 6.1: the format code of a selector N. -/
def selFormat (n : BitVec 3) : Nat :=
  if n = 0 then 1 else if n = 1 then 2 else if n = 2 then 3 else if n = 3 then 4 else if n = 4 then 8 else if n = 5 then 9
  else if n = 6 then 5 else 0

/-- R68: the largest exponent of a target. -/
def topExp (fmt : Nat) : Int := if fmt = 3 then 8 else if fmt = 4 then 15 else 3

/-- R68: the magnitude exponent of a finite non-zero value, floor(log2 |x|). -/
def Val.log2 : Val → Option Int
  | .fin _ m e => if m = 0 then none else some (e + Nat.log2 m)
  | _ => none

/-- R68: the exponent s of a block of values. -/
def blockExp (fmt : Nat) (xs : List Val) : Int :=
  match (xs.filterMap Val.log2).foldl (fun m k => some (max (m.getD k) k)) (none : Option Int) with
  | none => 0
  | some k => max (k - topExp fmt) (-127)

/-- R68: the element of a target from a value, for block exponent s. -/
def quantElem (fmt rm : Nat) (sc : Int) (w : Nat) (v : Val) : Nat :=
  let y := v.scale (-sc)
  if fmt = 5 then toL6 y
  else
    let f := floatFormat fmt
    match y with
    | .nan => 0
    | .inf neg => f.signBit neg + f.maxCode
    | .fin neg m e =>
      let lsb := sourceLsb fp32 v - sc
      let c := if rm = 4 then roundSR f neg m e lsb w else roundFin f rm neg m e
      match f.value c with
      | .inf n => f.signBit n + f.maxCode
      | _ => c

/-- R68: Quantise: the scale, the elements, and whether an infinity saturated. -/
def quantise (fmt rm : Nat) (w : Nat → Nat) (xs : List Val) : Nat × List Nat × Bool :=
  if xs.contains .nan then (0xFF, xs.map (fun _ => 0), false)
  else
    let sc := blockExp fmt xs
    ((sc + 127).toNat, xs.zipIdx.map (fun p => quantElem fmt rm sc (w p.2) p.1),
     xs.contains (.inf true) || xs.contains (.inf false))

/-- Table 6.1: elements of a format in a lane: bits of an element of a selected format. -/
def elemBits (fmt : Nat) : Nat := formatBits fmt

/-- Pack codes into a lane, first element lowest. -/
def packLane (bits : Nat) : List Nat → Nat
  | [] => 0
  | c :: t => c % 2 ^ bits + packLane bits t * 2 ^ bits

/-- Element j of a lane. -/
def elemOf (bits : Nat) (a : Lane) (j : Nat) : Nat := bitsOf a.toNat (bits * j) bits

/-- R163: elements in lanes 0 to 7, the scale in lane 8. -/
def execVquant (e : Entry) (s : State) : Out :=
  entForm e (roundsSR e) [] (fun s =>
    let a := s.entSrc e.a
    let fmt := selFormat e.fmt
    let q := quantise fmt e.rm (fun l => s.randomWord l 0) ((List.range 32).map (fun l => val32 (laneOf a l).toNat))
    s.emit e.d (vregOf (fun l =>
        if l < 8 then lane (packLane (elemBits fmt) ((q.2.1.drop (4 * l)).take 4)) else if l = 8 then lane q.1 else 0))
      (BitVec.allOnes 32) q.2.2) s

/-- R164: an element scaled by an E8 code, rounded once. -/
def dequantElem (fmt rm e8 c : Nat) : Nat :=
  if e8 = 0xFF then fp32.nan
  else
    let v := if fmt = 5 then l6Value c else (floatFormat fmt).value c
    roundVal fp32 rm 0 0 (v.scale ((e8 : Int) - 127))

def execVdequant (e : Entry) (s : State) : Out :=
  entForm e false [] (fun s =>
    let a := s.entSrc e.a
    let fmt := selFormat e.fmt
    s.emitLanes e (fun l => lane (dequantElem fmt e.rm ((laneOf a 8).toNat % 256)
      (elemOf (elemBits fmt) (laneOf a (l / 4)) (l % 4))))) s

/-- R165: two converted elements, the first at position `p` of E, in a lane. -/
def packPair (s : State) (fmt rm src l p n : Nat) (a b : Lane) : Nat :=
  let bits := 32 / n
  let w (j : Nat) := s.randomWord l (32 * j / n)
  convert src fmt rm (w p) a.toNat % 2 ^ bits + convert src fmt rm (w (p + 1)) b.toNat % 2 ^ bits * 2 ^ bits

def execVpack (e : Entry) (s : State) : Out :=
  entForm e (roundsSR e) [] (fun s =>
    let a := s.entSrc e.a
    let b := s.entSrc e.b
    let c := s.entSrc e.c
    let fmt := selFormat e.fmt
    let h := e.modBits 3 1
    s.emitLanes e (fun l =>
      if e.fmt.toNat ≤ 1 then lane (packPair s fmt e.rm 0 l 0 2 (laneOf a l) (laneOf b l))
      else
        let src := if 4 ≤ e.fmt.toNat then 0xA else 0
        let v := packPair s fmt e.rm src l (2 * h) 4 (laneOf a l) (laneOf b l)
        let old := (laneOf c l).toNat
        lane (if h = 0 then old / 65536 * 65536 + v else old % 65536 + v * 65536))) s

/-- R166: an element widened to 32 bits. -/
def widen (fmt c : Nat) : Nat :=
  if fmt = 8 then (BitVec.ofInt 32 (intValue 8 c)).toNat
  else if fmt = 9 then c
  else convert fmt 0 0 0 c

def execVunpack (e : Entry) (s : State) : Out :=
  entForm e false [] (fun s =>
    let a := s.entSrc e.a
    let fmt := selFormat e.fmt
    s.emitLanes e (fun l => lane (widen fmt (elemOf (elemBits fmt) (laneOf a l) (e.modBits 0 2))))) s

-- L6 arithmetic

/-- R167: Term_j of two lanes. -/
def l6TermAt (a b : Lane) (j : Nat) : Int := l6Term (elemOf 6 a j) (elemOf 6 b j)

def execVlmul (e : Entry) (s : State) : Out :=
  lane2 (fun a b => lane (roundVal fp32 0 0 0 (Val.ofInt (l6TermAt a b (e.modBits 0 2)) (-23)))) e s

def execVlsum (e : Entry) (s : State) : Out :=
  lane3 (fun a b c =>
    let t := l6TermAt a b 0 + l6TermAt a b 1 + l6TermAt a b 2 + l6TermAt a b 3
    lane (sumRound e.rm [val32 c.toNat, Val.ofInt t (-23)])) e s

end Sys2Proof.Machine
end

