-- ==== Sys2Proof/Machine/Tensor.lean ====
section
/-!
DEFINITION. Tensor descriptors (R265 to R271), the copies `copy`, `copyx`, `gather` and `scatter` (R191 to R194), copies into
handles (R192), and `route` (R272 to R275): what each reads as it starts and the writes it then performs.
-/

namespace Sys2Proof.Machine

-- tensors

/-- Table 10.1, R269: a tensor descriptor; sizes, strides and paddings have five places, size 1 above DIMS. -/
structure Tensor where
  dims    : Nat
  fmt     : Nat
  base    : Nat
  sizes   : List Nat
  strides : List Int
  padlo   : List Nat
  padval  : Nat
  skip    : Bool
  scaled  : Bool
  sbase   : Nat
  sstride : Int
  /-- elements of the outermost dimension per block; 0 where the tensor is not OWNED -/
  block   : Nat := 0
  bases   : List Nat := []
  deriving DecidableEq, Repr

/-- Table 10.1: the fields of 64 bytes. -/
def tensorOfBytes (bs : List Byte) : Tensor :=
  let w0 := fieldAt bs 0 8
  let w38 := fieldAt bs 0x38 8
  let dims := bitsOf w0 61 3
  { dims := dims, fmt := bitsOf w0 56 5, base := bitsOf w0 0 56
    sizes := (List.range 5).map (fun k => if k < dims then fieldAt bs (0x10 + 4 * k) 3 else 1)
    strides := (List.range 5).map (fun k => signedField bs (0x24 + 4 * k))
    padlo := (List.range 5).map (fun k => fieldAt bs (0x13 + 4 * k) 1)
    padval := fieldAt bs 0xC 4, skip := bitsOf w38 56 1 == 1, scaled := bitsOf w38 57 1 == 1
    sbase := bitsOf w38 0 56, sstride := signedField bs 8 }

/-- Bytes of an element that is not L6. -/
def Tensor.bytes (t : Tensor) : Nat := formatBits t.fmt / 8

/-- R98, R266, R267: a descriptor that breaks no layout rule of its side. -/
def tensorOk (l6 dest : Bool) (bs : List Byte) : Bool :=
  let t := tensorOfBytes bs
  decide (1 ≤ t.dims) && decide (t.dims ≤ 5) && decide (t.fmt ≤ 0xD) && (t.fmt != 5 || l6) &&
  fieldAt bs 0x38 8 / 2 ^ 59 == 0 &&
  (List.range 5).all (fun k => k < t.dims ||
    (fieldAt bs (0x10 + 4 * k) 4 == 0 && fieldAt bs (0x24 + 4 * k) 4 == 0)) &&
  (if t.scaled then t.fmt == 3 || t.fmt == 4 || t.fmt == 5 else t.sbase == 0) &&
  (dest || t.padlo.all (· == 0)) &&
  decide (t.padval < 2 ^ formatBits t.fmt) &&
  (t.fmt != 5 || (t.strides.getD 0 0 == 1 && (t.strides.drop 1).all (fun k => k % 32 == 0))) &&
  (!dest || (List.range t.dims).all (fun k => t.strides.getD k 0 != 0 || decide (t.sizes.getD k 0 ≤ 1)))

/-- R267: a base that is not a multiple of the element size. -/
def Tensor.misaligned (t : Tensor) (b : Nat) : Bool := t.fmt != 5 && b % t.bytes != 0

/-- R267: some size is 0. -/
def Tensor.empty (t : Tensor) : Bool := t.sizes.contains 0

/-- R269: the check on an owner entry, whose base the command reads or, as a destination, writes. -/
def ownerCheck (s : State) (ck x : Nat) (t : Tensor) (dest : Bool) (e : Nat × Nat) : Rd Nat :=
  if e.1 / 2 ^ 11 ≠ 0 then .bad (fail eBadBlock)
  else if t.misaligned e.2 then .bad (fail eAlignment e.2)
  else
    match reachEng s ck x e.2 (if dest then .write else .read) with
    | .miss => .wait
    | .trap c => .bad (fail (eOfCause c) e.2)
    | .ok g =>
      (match g.place with
       | .hbm fa => if homeOf fa = 4 * (e.1 % 512) + bitsOf e.1 9 2 then .ok e.2 else .bad (fail eProtection e.2)
       | _ => .bad (fail eProtection e.2))

/-- R269: the entries of an owner table, each of them checked. -/
def rdOwners (s : State) (ck x : Nat) (t : Tensor) (dest : Bool) : Rd Tensor :=
  (rdAligned s ck x t.base 16 16).bind (fun h =>
    let block := fieldAt h 0 4
    let count := fieldAt h 4 4
    let n := (t.sizes.getD (t.dims - 1) 0 + block - 1) / block
    (Rd.check (block == 0) (fail eBadBlock)).bind (fun _ =>
    (Rd.check (decide (count < n) && !t.empty) (fail eIndex t.base)).bind (fun _ =>
    (rdBytes s ck x (t.base + 16) (16 * count)).bind (fun bs =>
    (Rd.mapM (ownerCheck s ck x t dest) ((List.range count).map (fun b => (fieldAt bs (16 * b) 8, fieldAt bs (16 * b + 8) 8)))).map (fun l =>
      { t with block := block, bases := l })))))

/-- R265 to R269: read and check a descriptor of the source or the destination side. -/
def rdTensor (s : State) (ck x a : Nat) (dest : Bool) : Rd Tensor :=
  (rdAligned s ck x a 64 64).bind (fun bs =>
    let t := tensorOfBytes bs
    (Rd.check (!tensorOk (declares s ck x 1) dest bs) (fail eBadBlock)).bind (fun _ =>
      if bitsOf (fieldAt bs 0x38 8) 58 1 = 1 then rdOwners s ck x t dest
      else (Rd.check (t.misaligned t.base) (fail eAlignment t.base)).map (fun _ => t)))

/-- R194: rows, and the index (i1, …, i4) that row `r` spells. -/
def Tensor.rows (t : Tensor) : Nat := (t.sizes.drop 1).foldl (· * ·) 1

def spell : List Nat → Nat → List Nat
  | [], _ => []
  | n :: t, r => (if n = 0 then 0 else r % n) :: spell t (if n = 0 then 0 else r / n)

def Tensor.rowIndex (t : Tensor) (r : Nat) : List Nat := spell (t.sizes.drop 1) r

/-- R266: Σ ik · STRIDEk. -/
def offsetOf (idx : List Nat) (strides : List Int) : Int := ((idx.zip strides).map (fun p => (p.1 : Int) * p.2)).sum

/-- R266: where an element at offset `e` from a base lies: address, and bit for L6. -/
def Tensor.locate (t : Tensor) (base : Nat) (e : Int) : Nat × Nat :=
  if t.fmt = 5 then (addr64 (base + 3 * (e / 4)), 6 * (e % 4).toNat) else (addr64 (base + e * t.bytes), 0)

/-- R266, R269: where an element lies. -/
def Tensor.at_ (t : Tensor) (idx : List Nat) : Nat × Nat :=
  if t.block = 0 then t.locate t.base (offsetOf idx t.strides)
  else
    let d := t.dims - 1
    let i := idx.getD d 0
    t.locate (t.bases.getD (i / t.block) 0) (offsetOf (setAt idx d (i % t.block)) t.strides)

/-- R268: the address of the scale of block `j` of a row. -/
def Tensor.scaleAt (t : Tensor) (row j : Nat) : Nat := addr64 (t.sbase + row * t.sstride + j)

/-- The row number that an index spells. -/
def Tensor.rowOf (t : Tensor) (idx : List Nat) : Nat :=
  ((idx.drop 1).zip (t.sizes.drop 1)).foldr (fun p n => p.1 + p.2 * n) 0

/-- The code of an element. -/
def rdElem (s : State) (ck x : Nat) (t : Tensor) (idx : List Nat) : Rd Nat :=
  let p := t.at_ idx
  if t.fmt = 5 then (rdBytes s ck x p.1 3).map (fun bs => bitsOf (leNat bs) p.2 6)
  else (rdBytes s ck x p.1 t.bytes).map leNat

/-- R268: the scale of an element; 127 where the tensor is not scaled. -/
def rdScale (s : State) (ck x : Nat) (t : Tensor) (idx : List Nat) : Rd Nat :=
  if t.scaled then (rdBytes s ck x (t.scaleAt (t.rowOf idx) (idx.getD 0 0 / 32)) 1).map leNat else .ok 127

/-- R60: the exact value of a code of a format. -/
def codeValue (fmt c : Nat) : Val :=
  if isIntFormat fmt then Val.ofInt (intValue fmt c) 0 else if fmt = 5 then l6Value c else (floatFormat fmt).value c

/-- R48, R268: the value of a scaled element. -/
def scaledValue (fmt e8 c : Nat) : Val := if e8 = 0xFF then .nan else (codeValue fmt c).scale ((e8 : Int) - 127)

/-- R60: the code of an exact value in a format, by a mode other than SR (DEDUCED: R60 names L6 conversions only to and from
FP32; `copyx` between L6 and another format converts from the exact value in the same way, log entry 52). -/
def codeOf (dst rm : Nat) (v : Val) : Nat :=
  if dst = 5 then toL6 v
  else if isIntFormat dst then
    match v with
    | .nan => 0
    | .inf neg => saturate dst (if neg then (intRange dst).1 else (intRange dst).2)
    | .fin neg m e => saturate dst (roundToInt rm 0 0 neg m e)
  else roundVal (floatFormat dst) rm 0 0 v

/-- A destination element: pad or data, the code and its scale in the source's format. -/
structure Cell where
  pad  : Bool
  code : Nat
  e8   : Nat
  deriving DecidableEq, Repr

def rdCell (s : State) (ck x : Nat) (t : Tensor) (idx : List Nat) : Rd Cell :=
  (rdElem s ck x t idx).bind (fun c => (rdScale s ck x t idx).map (fun e => { pad := false, code := c, e8 := e }))

/-- R193: equal formats move bit for bit, others convert. -/
def moveCode (src dst : Tensor) (rm : Nat) (c : Cell) : Nat :=
  if c.pad then dst.padval
  else if src.fmt = dst.fmt && !src.scaled then c.code
  else if isIntFormat src.fmt && isIntFormat dst.fmt then intToInt src.fmt dst.fmt (intValue src.fmt c.code)
  else codeOf dst.fmt rm (scaledValue src.fmt c.e8 c.code)

/-- The value of a cell for quantisation (R270: a pad element counts as PADVAL's value). -/
def cellValue (src dst : Tensor) (c : Cell) : Val :=
  if c.pad then codeValue dst.fmt dst.padval else scaledValue src.fmt c.e8 c.code

/-- Lists of at most `n` elements each. -/
def chunksOf {α : Type} (n : Nat) : Nat → List α → List (List α)
  | 0, _ => []
  | k + 1, l => if l.isEmpty then [] else l.take n :: chunksOf n k (l.drop n)

/-- R68, R270: a block of a scaled destination: its scale and its codes. DEDUCED: a block of a scaled source can hold values
beyond FP32's range, whose scale code would exceed 254, which R68 rules out; its low 8 bits are written (log entry 97). -/
def quantBlock (src dst : Tensor) (rm : Nat) (keep : Bool) (cs : List Cell) : Nat × List Nat :=
  if cs.all (·.pad) then (0x7F, cs.map (fun _ => dst.padval))
  else if keep then ((cs.headD { pad := false, code := 0, e8 := 0 }).e8, cs.map (·.code))
  else let q := quantise dst.fmt rm (fun _ => 0) (cs.map (cellValue src dst)); (q.1, q.2.1)

/-- The codes of a row's cells and the scales of its blocks; `keep` moves codes and scales unchanged (R268). -/
def rowCodes (src dst : Tensor) (rm : Nat) (keep : Bool) (cs : List Cell) : List Nat × List Nat :=
  if dst.scaled then
    let bl := (chunksOf 32 cs.length cs).map (quantBlock src dst rm keep)
    (bl.flatMap (·.2), bl.map (·.1))
  else (cs.map (moveCode src dst rm), [])

/-- R271: elements of one 24-bit group are written together. -/
def joinGroup (w : EWrite) : List EWrite → List EWrite
  | [] => [w]
  | y :: t =>
    match y.mask, w.mask with
    | some a, some b =>
      if y.va = w.va then
        { va := y.va
          bytes := leBytes 3 (leNat (maskBytes y.bytes w.bytes (leBytes 3 b)))
          mask := some (Nat.lor a b) } :: t
      else w :: y :: t
    | _, _ => w :: y :: t

/-- The write of a code at an element. -/
def elemWrite (t : Tensor) (idx : List Nat) (code : Nat) : EWrite :=
  let p := t.at_ idx
  if t.fmt = 5 then { va := p.1, bytes := leBytes 3 (code % 64 * 2 ^ p.2), mask := some (63 * 2 ^ p.2) }
  else { va := p.1, bytes := leBytes t.bytes code }

/-- R194, R270, R271: the writes of a destination row. -/
def rowWrites (src dst : Tensor) (rm : Nat) (keep : Bool) (row : Nat) (cs : List Cell) : List EWrite :=
  let r := rowCodes src dst rm keep cs
  let idx := dst.rowIndex row
  let cells := (cs.zip r.1).zipIdx.filter (fun p => !(p.1.1.pad && dst.skip))
  let ws := cells.foldl (fun l p => joinGroup (elemWrite dst (p.2 :: idx) p.1.2) l) []
  ws.reverse ++ r.2.zipIdx.map (fun p => { va := dst.scaleAt row p.2, bytes := leBytes 1 p.1 })

/-- R193: formats that may be converted into each other. -/
def convertible (src dst : Tensor) : Bool :=
  src.fmt == dst.fmt || (src.fmt != 6 && src.fmt != 7 && dst.fmt != 6 && dst.fmt != 7)

-- extents

/-- The lowest and the end of the bytes of a box of elements from a base. -/
def boxExtent (t : Tensor) (base : Nat) (sizes : List Nat) : List (Nat × Nat) :=
  if sizes.contains 0 then []
  else
    let ps := sizes.zip t.strides
    let lo : Int := (ps.map (fun p => min 0 (((p.1 : Int) - 1) * p.2))).sum
    let hi : Int := (ps.map (fun p => max 0 (((p.1 : Int) - 1) * p.2))).sum
    let a := (t.locate base lo).1
    let b := (t.locate base hi).1 + (if t.fmt = 5 then 3 else t.bytes)
    [(a, b)]

/-- The address intervals of a tensor's elements. -/
def Tensor.extents (t : Tensor) : List (Nat × Nat) :=
  if t.block = 0 then boxExtent t t.base t.sizes
  else
    let d := t.dims - 1
    let n := t.sizes.getD d 0
    t.bases.zipIdx.flatMap (fun b => boxExtent t b.1 (setAt t.sizes d (min t.block (n - b.2 * t.block))))

/-- The address interval of a tensor's scales. -/
def Tensor.scaleExtents (t : Tensor) : List (Nat × Nat) :=
  if !t.scaled || t.empty then []
  else
    let m := (t.sizes.getD 0 0 + 31) / 32
    let l := addr64 (t.sbase + min 0 (((t.rows : Int) - 1) * t.sstride))
    [(l, l + (t.rows - 1) * t.sstride.natAbs + m)]

def overlapping (a b : List (Nat × Nat)) : Bool :=
  a.any (fun p => b.any (fun q => decide (p.1 < q.2) && decide (q.1 < p.2)))

/-- R259: the byte of the issuing core's own scratchpad that an address names, as context and allocation offset. -/
def ownByte (ck x va : Nat) : Option Nat :=
  if 0x00FF000000000000 ≤ va ∧ va < 0x00FF000000100000 then some (2 ^ 20 * x + (va - 0x00FF000000000000))
  else if 0x00FE000000000000 ≤ va ∧ va < 0x00FE010000000000 then
    let y := va - 0x00FE000000000000
    if 512 * (y / 2 ^ 31) + y / 2 ^ 22 % 512 = ck then some (y % 2 ^ 22) else none
  else none

/-- R259: the range of a side in the core's own scratchpad, if it has one. -/
def ownRange (ck x : Nat) (ext : List (Nat × Nat)) : Option (Nat × Nat) :=
  let l := ext.filterMap (fun p => match ownByte ck x p.1 with | some o => some (o, o + (p.2 - p.1)) | none => none)
  match l with
  | [] => none
  | h :: t => some (t.foldl (fun a b => (min a.1 b.1, max a.2 b.2)) h)

/-- R191, R259: a command's sides take their range-scoreboard entries; none if the scoreboard has no room. -/
def takeRanges (s : State) (ck x n num : Nat) (src dst : List (Nat × Nat)) : Option State :=
  let entry (w : Bool) (e : List (Nat × Nat)) : List RangeEntry :=
    match ownRange ck x e with
    | some r => [{ ctx := x, ectx := n, num := num, lo := r.1, hi := r.2, write := w }]
    | none => []
  let new := entry false src ++ entry true dst
  if Config.rangeEntries < (s.core ck).ranges.length + new.length then none
  else some (s.modCore ck (fun c => { c with ranges := c.ranges ++ new }))

-- what a command reads as it starts

/-- What a data movement does: its writes, or for a copy into a handle its slots; and the extents of its sides. -/
structure Move where
  writes : List EWrite := []
  data   : List Byte := []
  src    : List (Nat × Nat) := []
  dst    : List (Nat × Nat) := []

-- handles (R192)

/-- R192: groups that a handle selector names. -/
def selectedGroups (opnd : Nat) : List Nat :=
  let m := bitsOf opnd 8 8
  (List.range 8).filter (fun g => m == 0 || m / 2 ^ g % 2 == 1)

/-- R192: the handle that a command fills, or why it fails. -/
def hdstHandle (s : State) (ck x opnd : Nat) : Rd HandleDesc :=
  let c := s.ctx ck x
  let k := opnd % 8
  let hs := (selectedGroups opnd).map (fun g => c.arch.handles.find (8 * g + k))
  let shape (d : HandleDesc) : HandleDesc := { d with base := 0, sbase := 0 }
  if (if 6 ≤ k then !c.win.mxu else decide (c.win.handles ≤ k)) then .bad (fail eResource)
  else
    match hs.headD none with
    | none => .bad (fail eBadBlock)
    | some h => if hs.all (fun y => y.map (fun z => shape z.desc) == some (shape h.desc)) then .ok h.desc else .bad (fail eBadBlock)

/-- Bytes of a record: the slot's data, and its scales. -/
def HandleDesc.record (d : HandleDesc) : Nat := d.slotBytes + (if d.scaled then d.sbytes else 0)

-- copy (R191)

/-- What `copy` reads and writes. Into a handle it moves BYTES bytes of slot data; where the handle is scaled, its source holds the
scales of each slot behind that slot's data (R192; DEDUCED, log entry 125). -/
def readCopy (s : State) (ck x : Nat) (c : EngCmd) : Rd Move :=
  let src := c.word 0x10
  let dst := c.word 0x18
  let n := c.word 0x20
  (Rd.check (decide (2 ^ 40 < n)) (fail eBadBlock)).bind (fun _ =>
    if c.flags = 1 then
      (hdstHandle s ck x c.opnd).bind (fun h =>
        let m := n / h.slotBytes * h.record
        (Rd.check (dst != 0 || n % h.slotBytes != 0) (fail eBadBlock)).bind (fun _ =>
          (rdBytes s ck x src m).map (fun bs => { data := bs, src := [(src, src + m)] })))
    else
      (rdBytes s ck x src n).map (fun bs =>
        { writes := if n = 0 then [] else [{ va := dst, bytes := bs }]
          src := if n = 0 then [] else [(src, src + n)], dst := if n = 0 then [] else [(dst, dst + n)] }))

-- copyx (R193)

/-- R193: PERM of CTRL by destination dimension, and whether it is a permutation of the dimensions in use. -/
def permOf (ctrl : Nat) : List Nat := (List.range 5).map (fun j => bitsOf ctrl (3 * j) 3)

def permOk (dims ctrl : Nat) : Bool :=
  let p := permOf ctrl
  (List.range 5).all (fun j => if j < dims then decide (p.getD j 0 < dims) else p.getD j 0 == j) && decide p.Nodup

/-- R193: CTRL's other fields. -/
def ctrlOk (ctrl : Nat) : Bool := ctrl / 2 ^ 18 == 0 && decide (bitsOf ctrl 15 3 ≤ 3)

/-- The source index of a destination index, none for a pad element (R270). -/
def sourceIndex (src dst : Tensor) (perm idx : List Nat) : Option (List Nat) :=
  let inside := (List.range 5).all (fun j =>
    let lo := dst.padlo.getD j 0
    decide (lo ≤ idx.getD j 0) && decide (idx.getD j 0 < lo + src.sizes.getD (perm.getD j 0) 0))
  if inside then
    some ((List.range 5).map (fun k =>
      let j := perm.idxOf k
      idx.getD j 0 - dst.padlo.getD j 0))
  else none

/-- The cells of a destination row of `copyx`. -/
def copyxRow (s : State) (ck x : Nat) (src dst : Tensor) (perm : List Nat) (row : Nat) : Rd (List Cell) :=
  Rd.mapM (fun i =>
    match sourceIndex src dst perm (i :: dst.rowIndex row) with
    | some idx => rdCell s ck x src idx
    | none => .ok { pad := true, code := dst.padval, e8 := 127 }) (List.range (dst.sizes.getD 0 0))

/-- All rows of a destination with their cells. -/
def copyxRows (s : State) (ck x : Nat) (src dst : Tensor) (perm : List Nat) : Rd (List (List Cell)) :=
  if dst.empty then .ok [] else Rd.mapM (copyxRow s ck x src dst perm) (List.range dst.rows)

/-- R192: a handle as the dense destination of a permuted source. -/
def denseTensor (h : HandleDesc) (src : Tensor) (perm : List Nat) : Tensor :=
  { src with fmt := h.fmt, scaled := h.scaled, block := 0, bases := [], padval := 0, skip := false
             sizes := (List.range 5).map (fun j => src.sizes.getD (perm.getD j 0) 1) }

/-- Packed codes of a format, first element lowest. -/
def packCodes (bits : Nat) (cs : List Nat) : List Byte :=
  leBytes (bits * cs.length / 8) (cs.foldr (fun c n => c % 2 ^ bits + n * 2 ^ bits) 0)

/-- Records of data and scales. -/
def records (h : HandleDesc) : Nat → List Byte → List Byte → List Byte
  | 0, _, _ => []
  | n + 1, d, e => d.take h.slotBytes ++ e.take h.sbytes ++ records h n (d.drop h.slotBytes) (e.drop h.sbytes)

/-- R192: `copyx` into a handle: the elements in order, converted to the handle's format, with the source's scales. -/
def readCopyxHandle (s : State) (ck x : Nat) (c : EngCmd) (src : Tensor) (ctrl : Nat) : Rd Move :=
  let perm := permOf ctrl
  (hdstHandle s ck x c.opnd).bind (fun h =>
    let dst := denseTensor h src perm
    let bits := formatBits h.fmt * (dst.sizes.foldl (· * ·) 1)
    let keepOk := !h.scaled || (src.scaled && src.fmt == h.fmt && perm.getD 0 0 == 0)
    (Rd.check (c.word 0x18 != 0 || !convertible src dst || bits % (8 * h.slotBytes) != 0 || !keepOk) (fail eBadBlock)).bind (fun _ =>
      (copyxRows s ck x src dst perm).bind (fun rows =>
        let rs := rows.map (rowCodes src dst (bitsOf ctrl 15 3) true)
        let data := packCodes (formatBits h.fmt) (rs.flatMap (·.1))
        let sc := (rs.flatMap (·.2)).map (BitVec.ofNat 8 ·)
        let n := bits / (8 * h.slotBytes)
        (Rd.check (h.scaled && sc.length != n * h.sbytes) (fail eBadBlock)).map (fun _ =>
          { data := if h.scaled then records h n data sc else data, src := src.extents ++ src.scaleExtents }))))

def readCopyx (s : State) (ck x : Nat) (c : EngCmd) : Rd Move :=
  let ctrl := c.word 0x20
  (rdTensor s ck x (c.word 0x10) false).bind (fun src =>
    (Rd.check (!ctrlOk ctrl || !permOk src.dims ctrl) (fail eBadBlock)).bind (fun _ =>
      if c.flags = 1 then readCopyxHandle s ck x c src ctrl
      else
        (rdTensor s ck x (c.word 0x18) true).bind (fun dst =>
          let perm := permOf ctrl
          let fits := (List.range src.dims).all (fun j =>
            decide (dst.padlo.getD j 0 + src.sizes.getD (perm.getD j 0) 0 ≤ dst.sizes.getD j 0))
          (Rd.check (src.dims != dst.dims || !convertible src dst || (!dst.empty && !fits)) (fail eBadBlock)).bind (fun _ =>
          (Rd.check (ctrl % 2 ^ 15 != 0x4688 &&
              overlapping (src.extents ++ src.scaleExtents) (dst.extents ++ dst.scaleExtents)) (fail eOverlap)).bind (fun _ =>
          (copyxRows s ck x src dst perm).map (fun rows =>
            { writes := rows.zipIdx.flatMap (fun r => rowWrites src dst (bitsOf ctrl 15 3) false r.2 r.1)
              src := src.extents ++ src.scaleExtents, dst := dst.extents ++ dst.scaleExtents }))))))

-- gather and scatter (R194)

/-- A source row as cells. -/
def rdRow (s : State) (ck x : Nat) (t : Tensor) (row : Nat) : Rd (List Cell) :=
  Rd.mapM (fun i => rdCell s ck x t (i :: t.rowIndex row)) (List.range (t.sizes.getD 0 0))

/-- R194, R268: the writes that move a row. -/
def moveRow (s : State) (ck x : Nat) (src dst : Tensor) (rm from_ to_ : Nat) : Rd (List EWrite) :=
  (rdRow s ck x src from_).map (rowWrites src dst rm (src.scaled && src.fmt == dst.fmt) to_)

/-- R194: the layout rules of a row move. -/
def rowMoveOk (src dst : Tensor) (ctrl : Nat) : Bool :=
  ctrlOk ctrl && ctrl % 2 ^ 15 == 0x4688 && src.sizes.getD 0 0 == dst.sizes.getD 0 0 && convertible src dst &&
  dst.padlo.all (· == 0)

def readRows (gather : Bool) (s : State) (ck x : Nat) (c : EngCmd) : Rd Move :=
  let ctrl := c.word 0x20
  let count := c.word 0x30
  (rdTensor s ck x (c.word 0x10) false).bind (fun src =>
  (rdTensor s ck x (c.word 0x18) true).bind (fun dst =>
  (Rd.check (!rowMoveOk src dst ctrl || decide (2 ^ 32 ≤ count)) (fail eBadBlock)).bind (fun _ =>
  (rdAligned s ck x (c.word 0x28) (4 * count) 4).bind (fun bs =>
    let idx := (List.range count).map (fun i => fieldAt bs (4 * i) 4)
    let indexed := if gather then src.rows else dst.rows
    let other := if gather then dst.rows else src.rows
    (Rd.check (decide (other < count) || idx.any (fun i => i != 0xFFFFFFFF && decide (indexed ≤ i)))
      (fail eIndex (c.word 0x28))).bind (fun _ =>
    (Rd.mapM (fun (p : Nat × Nat) =>
        if p.1 = 0xFFFFFFFF then .ok []
        else if gather then moveRow s ck x src dst (bitsOf ctrl 15 3) p.1 p.2
        else moveRow s ck x src dst (bitsOf ctrl 15 3) p.2 p.1) idx.zipIdx).map (fun ws =>
      { writes := ws.flatten, src := src.extents ++ src.scaleExtents, dst := dst.extents ++ dst.scaleExtents }))))))

-- route (R272 to R275)

/-- Table 10.2: the routing descriptor's small fields. -/
structure RouteDesc where
  tokens  : Nat
  k       : Nat
  l       : Nat
  e       : Nat
  reroute : Bool
  deriving DecidableEq, Repr

def routeOf (c : EngCmd) : RouteDesc :=
  let w := c.word 0x30
  { tokens := bitsOf w 0 24, k := bitsOf w 24 4, l := bitsOf w 28 4 + 1, e := bitsOf w 32 12 + 1, reroute := bitsOf w 44 1 == 1 }

/-- Table 10.2: the ranges of its fields. -/
def routeOk (c : EngCmd) : Bool :=
  let r := routeOf c
  c.word 0x30 / 2 ^ 45 == 0 && decide (1 ≤ r.tokens) && decide (1 ≤ r.k) && decide (r.k ≤ 8) && decide (r.k ≤ r.l)

/-- Table 10.3: an expert: its input rows, status block and capacity. -/
structure Expert where
  dst    : Tensor
  status : Nat
  cap    : Nat

def rdExpert (s : State) (ck x : Nat) (bs : List Byte) (e : Nat) : Rd Expert :=
  let o := 32 * e
  let cap := fieldAt bs (o + 0x10) 8
  (Rd.check (decide (2 ^ 20 ≤ cap) || fieldAt bs (o + 0x18) 8 != 0) (fail eBadBlock)).bind (fun _ =>
  (Rd.check (fieldAt bs (o + 8) 8 % 32 != 0) (fail eAlignment (fieldAt bs (o + 8) 8))).bind (fun _ =>
  (rdTensor s ck x (fieldAt bs o 8) true).bind (fun t =>
    (Rd.check (decide (t.rows < cap)) (fail eBadBlock)).map (fun _ => { dst := t, status := fieldAt bs (o + 8) 8, cap := cap }))))

/-- R274: the counters of an expert: rows placed, drops, reroutes, exhausted choices. -/
abbrev ExpertCount := Nat × Nat × Nat × Nat

/-- R274: the state of placement: counters by expert, the token's map words, rows to copy (token, expert, slot). -/
structure Placing where
  counts : Tbl ExpertCount := []
  map    : List Nat := []
  placed : List Nat := []
  copies : List (Nat × Nat × Nat) := []
  deriving DecidableEq, Repr

def Placing.count (p : Placing) (e : Nat) : ExpertCount := p.counts.get e (0, 0, 0, 0)

/-- R274: one token's list, from choice `i` on. -/
def placeToken (caps : List Nat) (r : RouteDesc) (t : Nat) : List Nat → Nat → Placing → Placing
  | [], _, p => p
  | e :: rest, i, p =>
    if e = 0xFFFF ∨ p.placed.length = r.k then p
    else if p.placed.contains e then placeToken caps r t rest (i + 1) p
    else
      let n := p.count e
      if n.1 < caps.getD e 0 then
        let j := if r.reroute then p.placed.length else i
        placeToken caps r t rest (i + 1)
          { p with counts := p.counts.set e (n.1 + 1, n.2), map := setAt p.map j (e * 2 ^ 20 + n.1)
                   placed := p.placed ++ [e], copies := p.copies ++ [(t, e, n.1)] }
      else if r.reroute then
        placeToken caps r t rest (i + 1) { p with counts := p.counts.set e (n.1, n.2.1, n.2.2.1 + 1, n.2.2.2) }
      else placeToken caps r t rest (i + 1) { p with counts := p.counts.set e (n.1, n.2.1 + 1, n.2.2) }

/-- R274: unplaced choices under REROUTE count at their original experts. -/
def exhaust : List Nat → Placing → Placing
  | [], p => p
  | e :: rest, p =>
    if e = 0xFFFF then exhaust rest p
    else let n := p.count e; exhaust rest { p with counts := p.counts.set e (n.1, n.2.1, n.2.2.1, n.2.2.2 + 1) }

/-- R274: one token; its map words are left in `map`. -/
def placeOne (caps : List Nat) (r : RouteDesc) (t : Nat) (list : List Nat) (p : Placing) : Placing :=
  let p0 := { p with map := List.replicate r.k 0xFFFFFFFF, placed := [] }
  let p1 := placeToken caps r t (if r.reroute then list else list.take r.k) 0 p0
  if r.reroute then exhaust ((list.take r.k).drop p1.placed.length) p1 else p1

/-- R274: all tokens in order: the map words of each, and the end of placement. -/
def placeAll (caps : List Nat) (r : RouteDesc) : List (List Nat) → Nat → Placing → List Nat × Placing
  | [], _, p => ([], p)
  | l :: rest, t, p =>
    let p1 := placeOne caps r t l p
    let q := placeAll caps r rest (t + 1) p1
    (p1.map ++ q.1, q.2)

/-- R273: a status block. -/
def statusBytes (n : ExpertCount) : List Byte := leBytes 8 n.1 ++ leBytes 8 n.2.1 ++ leBytes 8 n.2.2.1 ++ leBytes 8 n.2.2.2

/-- R194, R275: formats of the token rows and of an expert's rows that agree for a row move. -/
def expertFits (tok : Tensor) (e : Expert) : Bool := rowMoveOk tok e.dst 0x4688

/-- R275: what `route` reads, and its rows, map words and status blocks in this order. Every ID of a list is checked, those behind an
early 0xFFFF too (DESIGN CHOICE, log entry 135). -/
def readRoute (s : State) (ck x : Nat) (c : EngCmd) : Rd Move :=
  let r := routeOf c
  let map := c.word 0x28
  (Rd.check (!routeOk c) (fail eBadBlock)).bind (fun _ =>
  (Rd.check (map % 4 != 0) (fail eAlignment map)).bind (fun _ =>
  (rdTensor s ck x (c.word 0x10) false).bind (fun tok =>
  (rdAligned s ck x (c.word 0x20) (32 * r.e) 32).bind (fun eb =>
  (Rd.mapM (rdExpert s ck x eb) (List.range r.e)).bind (fun ex =>
  (Rd.check (decide (tok.rows < r.tokens) || !ex.all (expertFits tok)) (fail eBadBlock)).bind (fun _ =>
  (rdBytes s ck x (c.word 0x18) (2 * r.l * r.tokens)).bind (fun lb =>
    let lists := (List.range r.tokens).map (fun t => (List.range r.l).map (fun i => fieldAt lb (2 * (r.l * t + i)) 2))
    (Rd.check (lists.any (fun l => l.any (fun e => e != 0xFFFF && decide (r.e ≤ e)))) (fail eIndex (c.word 0x18))).bind (fun _ =>
      let p := placeAll (ex.map (·.cap)) r lists 0 {}
      (Rd.mapM (fun (k : Nat × Nat × Nat) =>
          match ex[k.2.1]? with
          | some e => moveRow s ck x tok e.dst 0 k.1 k.2.2
          | none => .ok []) p.2.copies).map (fun rows =>
        { writes := rows.flatten ++
            (if map = 0 then [] else [{ va := map, bytes := p.1.flatMap (leBytes 4) }]) ++
            ex.zipIdx.map (fun e => { va := e.1.status, bytes := statusBytes (p.2.count e.2) }) }))))))))) 

end Sys2Proof.Machine
end

