-- ==== Sys2Proof/Machine/Collective.lean ====
section
/-!
DEFINITION. Collectives and reduction windows (R65, R283 to R292): `coll` and its matching, tiled collectives and `tready`,
windows with `mred` and `mldr`, and their timeouts.
-/

namespace Sys2Proof.Machine

/-- Ticks of a TIMEOUT in µs; 0 selects 10,000 (R278, R283). -/
def timeoutTicks (us : Nat) : Nat := 3000 * (if us = 0 then Config.defaultTimeoutUs else us)

-- the body (Table 10.7)

def collKind (c : EngCmd) : Nat := bitsOf (c.word 0x10) 0 4
def collOpr (c : EngCmd) : Nat := bitsOf (c.word 0x10) 4 4
def collFmt (c : EngCmd) : Nat := bitsOf (c.word 0x10) 8 5
def collTc (c : EngCmd) : Nat := bitsOf (c.word 0x10) 13 1
def collAlg (c : EngCmd) : Nat := bitsOf (c.word 0x10) 16 3
def collRank (c : EngCmd) : Nat := bitsOf (c.word 0x18) 0 16
def collRanks (c : EngCmd) : Nat := bitsOf (c.word 0x18) 16 16
def collTimeout (c : EngCmd) : Nat := timeoutTicks (bitsOf (c.word 0x18) 32 32)
def collBytes (c : EngCmd) : Nat := c.word 0x38
def collTiles (c : EngCmd) : Nat := bitsOf (c.word 0x38) 0 16
def collFanout (c : EngCmd) : Nat := bitsOf (c.word 0x38) 16 4
def collAbortRec (c : EngCmd) : Nat := c.word 0x40
def collWindow (c : EngCmd) : Nat := bitsOf (c.word 0x48) 0 8
def collRfmt (c : EngCmd) : Nat := bitsOf (c.word 0x48) 8 5

/-- Table 10.7: formats of a collective. -/
def collFormat (f : Nat) : Bool := [0, 1, 2, 0xA, 0xB, 0xC, 0xD].contains f

/-- Table 10.7: the layout of the body, without its group. -/
def collBodyOk (c : EngCmd) : Bool :=
  let k := collKind c
  let w48 := c.word 0x48
  decide (k ≤ 6) && decide (collOpr c ≤ 7) && collFormat (collFmt c) && !(isFloatFormat (collFmt c) && decide (2 < collOpr c)) &&
  bitsOf (c.word 0x10) 14 2 == 0 && c.word 0x10 / 2 ^ 19 == 0 && decide (collAlg c ≤ 5) &&
  decide (1 ≤ collRanks c) && decide (collRanks c ≤ 4096) && decide (collRank c < collRanks c) &&
  (if k = 4 then c.word 0x38 / 2 ^ 20 == 0 && decide (1 ≤ collFanout c) && decide (collFanout c ≤ 8)
   else collBytes c % 128 == 0 && (k != 1 || collBytes c % (128 * collRanks c) == 0)) &&
  w48 / 2 ^ 14 == 0 && (decide (5 ≤ k) || w48 == 0) &&
  (k != 5 || (if isFloatFormat (collFmt c) then decide (collRfmt c ≤ 1) else collRfmt c == collFmt c))

/-- Table 10.7: a member word, as core and context together (`memberKey`). -/
def memberOf (w : Nat) : Nat := 4 * (512 * bitsOf w 0 9 + bitsOf w 9 9) + bitsOf w 18 2

/-- The member list of a collective. -/
def collGroup (s : State) (ck x : Nat) (c : EngCmd) : Rd (List Nat) :=
  (Rd.check (!collBodyOk c) (fail eBadBlock)).bind (fun _ =>
  (rdBytes s ck x (c.word 0x20) (4 * collRanks c)).bind (fun bs =>
    let ws := (List.range (collRanks c)).map (fun i => fieldAt bs (4 * i) 4)
    let ms := ws.map memberOf
    (Rd.check (ws.any (fun w => w / 2 ^ 20 != 0) || !decide ms.Nodup || ms[collRank c]? != some (memberKey ck x))
      (fail eBadBlock)).map (fun _ => ms)))

-- tiles (R288)

/-- An entry of the tile table. -/
structure TileEntry where
  laddr : Nat
  raddr : Nat
  bytes : Nat
  op    : Nat
  deriving DecidableEq, Repr

def tileEntry (bs : List Byte) (i : Nat) : TileEntry :=
  { laddr := fieldAt bs (32 * i) 8, raddr := fieldAt bs (32 * i + 8) 8, bytes := fieldAt bs (32 * i + 16) 4
    op := bitsOf (fieldAt bs (32 * i + 20) 4) 0 4 }

def tileEntryOk (bs : List Byte) (i : Nat) : Bool :=
  let e := tileEntry bs i
  decide (e.op ≤ 3) && fieldAt bs (32 * i + 20) 4 / 16 == 0 && fieldAt bs (32 * i + 24) 8 == 0 &&
  (decide (e.op ≤ 1) || e.bytes % 4 == 0)

/-- R288: the allocation offset of the ready flags, if they lie in the issuing context's scratchpad. -/
def flagsAt (s : State) (ck x : Nat) (c : EngCmd) : Option Nat :=
  match ownByte ck x (c.word 0x30) with
  | some o =>
    let off := o % 2 ^ 20
    if o / 2 ^ 20 = x ∧ off % 4 = 0 ∧ off + 4 * collTiles c ≤ (s.ctx ck x).win.spad then some off else none
  | none => none

/-- R288: what a tiled collective reads as it starts: its tile table. -/
def readTiles (s : State) (ck x : Nat) (c : EngCmd) : Rd Move :=
  let n := collTiles c * collFanout c
  (Rd.check (flagsAt s ck x c).isNone (fail eBadBlock)).bind (fun _ =>
  (rdBytes s ck x (c.word 0x28) (32 * n)).bind (fun bs =>
    (Rd.check (!(List.range n).all (tileEntryOk bs)) (fail eBadBlock)).map (fun _ => { data := bs })))

/-- R285, R287, R289: what a collective reads at its first step: its member list before its KIND is judged (DESIGN CHOICE, log entry 132). -/
def readColl (s : State) (ck x : Nat) (c : EngCmd) : Rd Move :=
  (collGroup s ck x c).bind (fun ms =>
    let k := collKind c
    (Rd.check (decide (5 ≤ k) && !declares s ck x 5) (fail eBadBlock)).bind (fun _ =>
      if k = 4 then readTiles s ck x c
      else if k = 5 then (rdBytes s ck x (c.word 0x30) (8 * ms.length)).map (fun bs => { data := bs })
      else if k = 6 ∨ (k = 3 ∧ collRank c ≠ 0) then .ok {}
      else (rdBytes s ck x (c.word 0x28) (collBytes c)).map (fun bs => { data := bs })))

/-- R288: the ready flags of a tiled collective as it is accepted, from the block as its issuer sees it. -/
def flagsAccepted (c : EngCmd) (s : State) : EngCmd :=
  match (acceptBytes s s.frame.core s.frame.ctx c.desc 0x50).res with
  | .ok bs =>
    let c' := { c with body := bs }
    (match (if collKind c' = 4 then flagsAt s s.frame.core s.frame.ctx c' else none) with
     | some o => { c with flagAt := o, ntiles := collTiles c' }
     | none => c)
  | _ => c

def execColl (d : BitVec 5) (n : BitVec 3) (sc : BitVec 5) (s : State) : Out :=
  behind (engGate (descOf d s) 16 n sc true s) s (fun s =>
    accept n.toNat (flagsAccepted (newCmd 0x09 (descOf d s) 0 sc 0 s) s) s)

-- the reduction (R65, R285)

/-- Codes of Table 5.4 by OPR. -/
def oprOp (opr : Nat) : Nat := [opAdd, opMin, opMax, opMinn, opMaxn, opAnd, opOr, opXor].getD opr opAdd

/-- One more contribution, on FP32 for floating formats. -/
def collReduce (fmt opr acc v : Nat) : Nat :=
  if isFloatFormat fmt then (if opr = 0 then addF 0 acc v else minmaxF (opr == 2) acc v)
  else atomNew (oprOp opr) (formatBits fmt / 8) acc v 0

/-- R60: widened exactly to FP32. -/
def widened (fmt v : Nat) : Nat := if isFloatFormat fmt then convert fmt 0 0 0 v else v

/-- Contributions to one element, in ascending order, and the result in the result format. -/
def reduceElem (fmt rfmt opr : Nat) : List Nat → Nat
  | [] => 0
  | v :: t =>
    let acc := (t.map (widened fmt)).foldl (collReduce fmt opr) (widened fmt v)
    if isFloatFormat fmt then convert 0 rfmt 0 0 acc else acc

/-- `n` elements of every member's bytes, reduced. -/
def reduceBytes (fmt rfmt opr : Nat) : Nat → List (List Byte) → List Byte
  | 0, _ => []
  | n + 1, ls =>
    let w := formatBits fmt / 8
    leBytes (formatBits rfmt / 8) (reduceElem fmt rfmt opr (ls.map (fun l => leNat (l.take w)))) ++
      reduceBytes fmt rfmt opr n (ls.map (fun l => l.drop w))

/-- R285: what rank `r` writes, from every rank's source. -/
def collResult (kind fmt opr r bytes : Nat) (srcs : List (List Byte)) : List Byte :=
  let n := srcs.length
  let red := if n = 1 then srcs.headD [] else reduceBytes fmt fmt opr (bytes / (formatBits fmt / 8)) srcs
  if kind = 0 then red
  else if kind = 1 then (red.drop (r * (bytes / n))).take (bytes / n)
  else if kind = 2 then srcs.flatten
  else srcs.headD []

-- the algorithm (R286)

/-- Reset contents of the selection table. -/
def selReset (size group : Nat) : Nat :=
  if size ≤ 7 then (if group ≤ 2 then 4 else 2) else if size ≤ 13 then 3 else 1

/-- ceil(log2 n) for n above 0. -/
def clog2 (n : Nat) : Nat := if n ≤ 1 then 0 else Nat.log2 (n - 1) + 1

/-- A byte of a selection table (BAR0 0x100), from the registers written. -/
def selByte (t : Tbl (BitVec 64)) (i : Nat) : Nat :=
  match t.find (0x100 + 8 * (i / 8)) with
  | some w => bitsOf w.toNat (8 * (i % 8)) 8
  | none => selReset (i / 10) (i % 10)

/-- R286, R311: the algorithm, from the selection table at the command's acceptance; in-switch is 5. -/
def collAlgorithm (s : State) (ck x : Nat) (c : EngCmd) : Nat :=
  let small := match s.launchOf ck x with | some l => decide (collBytes c < l.oneshot) | none => false
  if collTc c = 1 && small then 0
  else if collAlg c != 0 then collAlg c
  else selByte c.selTab (10 * min 31 (clog2 (collBytes c) - 6) + min 9 (clog2 (collRanks c) - 1))

/-- R286: an in-switch choice without a free window runs as ring and is counted, once per collective. -/
def countFallback (s : State) (ck x : Nat) (c : EngCmd) : State :=
  if collRank c = 0 && decide (collKind c ≤ 3) && collAlgorithm s ck x c == 5 && decide (Config.podWindows ≤ s.windows.length) then
    s.count (pkgOf ck) 0x100010
  else s

/-- R287, R358: the Otcor port whose runner carries a member's part of a bulk collective: one in service that is not being taken out,
which one is open. Direct pushes below the threshold, tiles and in-switch collectives take no runner. -/
def runnerPort (s : State) (ck x : Nat) (c : EngCmd) : Option Nat :=
  let alg := collAlgorithm s ck x c
  let l := (List.range 32).filter (fun n => let o := (s.pkg (pkgOf ck)).ports.get n {}; !o.out && !o.closing)
  if 4 ≤ collKind c ∨ alg = 0 ∨ (alg = 5 ∧ s.windows.length < Config.podWindows) then none
  else l[Config.freePort s.free % l.length]?

-- matching (R284)

/-- The fields that must agree. -/
def collKey (c : EngCmd) : List Nat :=
  [collKind c, collOpr c, collFmt c, collTc c, collAlg c, collRanks c, if collKind c = 4 then 0 else collBytes c]

/-- R284: the number of the next collective of a group's member, and the state with it counted. -/
def nextSeq (s : State) (g : List Nat) (r : Nat) : Nat × State :=
  match s.collSeq.find? (fun q => q.1 == g && q.2.1 == r) with
  | some q => (q.2.2, { s with collSeq := s.collSeq.map (fun y => if y.1 == g && y.2.1 == r then (g, r, y.2.2 + 1) else y) })
  | none => (0, { s with collSeq := s.collSeq ++ [(g, r, 1)] })

/-- Members of one collective that have joined, by rank. -/
def joinedAt (s : State) (g : List Nat) (seq : Nat) : List CollJoin := s.colls.filter (fun j => j.group == g && j.seq == seq)

/-- Bytes of a rank's DST. -/
def dstBytes (c : EngCmd) : Nat :=
  let k := collKind c
  if k = 1 then collBytes c / collRanks c else if k = 2 then collBytes c * collRanks c else if k ≤ 3 then collBytes c else 0

/-- Table 10.8: the abort record of a rank none of whose granules has been written. -/
def abortRecord (s : State) (p : Nat) (c : EngCmd) (code : Nat) (absent : List Nat) : List Byte :=
  let g := dstBytes c / 128
  leBytes 8 (code + collRank c * 256) ++ leBytes 8 g ++
  leBytes 8 (absent.length * 2 ^ 16 + (match absent with | [] => 0xFFFF | a :: _ => a)) ++ leBytes 8 (s.devTime p) ++
  zeros ((g + 7) / 8)

/-- R292: a member's `coll` aborts with a code. -/
def abortColl (s : State) (ck x n num code : Nat) (absent : List Nat) : State :=
  s.modCmd ck x n num (fun c =>
    let a := collAbortRec c
    { c with verdict := some (fail code a)
             writes := if a = 0 then [] else [{ va := a, bytes := abortRecord s (pkgOf ck) c code absent }] })

/-- R284, R292: all joined members of a collective abort. -/
def abortJoined (s : State) (g : List Nat) (seq code : Nat) (absent : List Nat) : State :=
  let js := joinedAt s g seq
  let s1 := { s with colls := s.colls.filter (fun j => !(j.group == g && j.seq == seq)) }
  js.foldl (fun s j => abortColl s j.core j.ctx j.ectx j.num code absent) s1

/-- R285: every member has joined: the results of all ranks are settled. -/
def settleColl (s : State) (g : List Nat) (seq : Nat) : State :=
  let js := joinedAt s g seq
  let s1 := { s with colls := s.colls.filter (fun j => !(j.group == g && j.seq == seq)) }
  let srcs := (List.range g.length).map (fun r => match js.find? (fun j => j.rank == r) with | some j => j.src | none => [])
  js.foldl (fun s j =>
    s.modCmd j.core j.ctx j.ectx j.num (fun c =>
      let bs := collResult (collKind c) (collFmt c) (collOpr c) j.rank (collBytes c) srcs
      { c with ready := true
               writes := if collKind c = 4 || bs.isEmpty then [] else [{ va := c.word 0x30, bytes := bs }] })) s1

/-- R284: a started collective of KIND 0 to 4 joins its group's; the last to join settles it. -/
def joinColl (s : State) (ck x n : Nat) (c : EngCmd) : State :=
  if 5 ≤ collKind c then s
  else
    match (collGroup s ck x c).res with
    | .ok g =>
      let q := nextSeq s g (collRank c)
      if c.verdict.isSome then q.2
      else
        let j : CollJoin := { group := g, seq := q.1, rank := collRank c, core := ck, ctx := x, ectx := n, num := c.num
                              key := collKey c, src := c.data, since := s.tick, port := runnerPort s ck x c
                              timeout := collTimeout c }
        let s1 := countFallback { q.2 with colls := q.2.colls ++ [j] } ck x c
        let js := joinedAt s1 g q.1
        if js.length < g.length then s1
        else if js.all (fun y => y.key == j.key) then settleColl s1 g q.1
        else abortJoined s1 g q.1 eBadBlock []
    | _ => s

/-- R291: a member can take part in no round: its package, die or core is out. -/
def memberOut (s : State) (p m : Nat) : Bool :=
  let ck := m / 4
  !s.hasPkg (pkgOf ck) || (s.pkg p).retCores.contains ck || (s.pkg p).retDies.contains (dieOf ck)

/-- COLLECTIVE_TIMEOUT (R291, R292): an absent rank or the end of TIMEOUT aborts the collective of a command. -/
def execCollectiveTimeout (s : State) : Out :=
  let ck := s.ev.core
  let x := s.ev.ctx
  let n := s.ev.ectx
  match (s.eng ck x n).find s.ev.num with
  | none => .next s
  | some c =>
    if c.op ≠ 9 ∨ !c.started ∨ c.verdict.isSome then .next s
    else
      match s.colls.find? (fun j => j.core == ck && j.ctx == x && j.ectx == n && j.num == c.num) with
      | some j =>
        let here := (joinedAt s j.group j.seq).map (·.rank)
        let absent := (List.range j.group.length).filter (fun r => !here.contains r)
        let out := absent.filter (fun r => memberOut s (pkgOf ck) (j.group.getD r 0))
        if !out.isEmpty then .next (abortJoined s j.group j.seq eAbsent out)
        else if j.since + collTimeout c ≤ s.tick then .next (abortJoined s j.group j.seq eTimeout absent)
        else .next s
      | none =>
        if collKind c = 4 && c.ready && decide (c.fired.length < c.ntiles) && decide (c.startAt + collTimeout c ≤ s.tick) then
          .next (abortColl s ck x n c.num eTimeout [])
        else .next s

-- tiles fire (R288)

/-- The words of an addition: destination address and value. -/
def tileWords (e : TileEntry) (bs : List Byte) : List (Nat × Nat) :=
  (List.range (e.bytes / 4)).map (fun i => (e.raddr + 4 * i, fieldAt bs (4 * i) 4))

def tileOp (e : TileEntry) : Nat := if e.op = 2 then opFadd else opAdd

/-- What keeps the additions of an entry from performing; R279: a retained input refuses them too. -/
def checkTileWord (s : State) (ck x : Nat) (c : EngCmd) (op : Nat) (p : Nat × Nat) : Rd Unit :=
  (Rd.check (p.1 % 4 != 0) (fail eAlignment p.1)).bind (fun _ =>
  (checkSpan s ck x c .both p.1 4).bind (fun _ =>
    match reachEng s ck x p.1 .both with
    | .miss => .wait
    | .trap k => .bad (fail (eOfCause k) p.1)
    | .ok t =>
      match placeCause s ck x (atomPlace s ck (c.snap.point) t.place) op 4 false with
      | some k => .bad (fail (eOfCause k) p.1)
      | none => .ok ()))

/-- The bytes of an entry, if all of it can be performed. -/
def checkTileEntry (s : State) (ck x : Nat) (c : EngCmd) (e : TileEntry) : Rd (List Byte) :=
  if e.op = 0 then .ok []
  else (rdBytes s ck x e.laddr e.bytes).bind (fun bs =>
    if e.op = 1 then (checkWrites s ck x c [{ va := e.raddr, bytes := bs }]).map (fun _ => bs)
    else (Rd.mapM (checkTileWord s ck x c (tileOp e)) (tileWords e bs)).map (fun _ => bs))

/-- R279: an addition into result ranges of open transactions is buffered: it adds to the buffered word, or to the range's own
where none is buffered yet (log entry 99). -/
def bufferAdd (s : State) (ck : Nat) (ts : List Ltx) (me : Nat) (g : Target) (fa op v : Nat) : State × Bool :=
  let old := leNat ((List.range 4).map (fun i =>
    (ts.findSome? (fun t => bufferByte t.buffer (fa + i))).getD (Mem.rd s.mem (fa + i))))
  bufferPiece s ck ts me g fa (leBytes 4 (atomNew op 4 old v 0)) (List.replicate 4 255)

/-- An addition at its place, or in a transaction's buffer; with `true` when that overflowed the staging memory. -/
def addTileWord (ck x : Nat) (c : EngCmd) (op : Nat) (r : State × Bool) (p : Nat × Nat) : State × Bool :=
  if r.2 then r
  else
    let s := r.1
    match reachEng s ck x p.1 .both with
    | .ok t =>
      let direct : State × Bool := ((atomAt s ck x t (atomPlace s ck c.snap.point t.place) op 4 p.2 0).1, false)
      (match t.place with
       | .hbm fa =>
         (match buffersOf s (s.ctx ck x).launch c fa 4 with
          | [] => direct
          | ts => bufferAdd (performSlice s (dieOf ck) t.place 4) ck ts (memberKey ck x) t fa op p.2)
       | _ => direct)
    | _ => r

/-- An entry performs. -/
def performTileEntry (ck x : Nat) (c : EngCmd) (r : State × Option EngFail) (e : TileEntry) : State × Option EngFail :=
  match r.2 with
  | some _ => r
  | none =>
    if e.op = 0 then r
    else
      match (rdBytes r.1 ck x e.laddr e.bytes).res with
      | .ok bs =>
        if e.op = 1 then performWrites r.1 ck x c [{ va := e.raddr, bytes := bs }]
        else
          let y := (tileWords e bs).foldl (addTileWord ck x c (tileOp e)) (r.1, false)
          (y.1, if y.2 then some (fail eLtxAborted) else none)
      | _ => r

/-- R288: tile `i` of a collective fires; none if a page migrates. -/
def fireTile (s : State) (ck x n : Nat) (c : EngCmd) (i : Nat) : Option State :=
  if c.fired.contains i then some s
  else
    let f := collFanout c
    let es := (List.range f).map (fun j => tileEntry c.data (f * i + j))
    let q := Rd.mapM (checkTileEntry s ck x c) es
    match q.res with
    | .wait => none
    | .bad e => some (engReads (s.modCmd ck x n c.num (fun k => { k with verdict := some { e with detail := 0 } })) ck x q.log)
    | .ok _ =>
      let r := es.foldl (performTileEntry ck x c) (s, none)
      let s1 := r.1.modCmd ck x n c.num (fun k => { k with fired := i :: k.fired, verdict := k.verdict.orElse (fun _ => r.2) })
      some (engReads s1 ck x q.log)

/-- The physical word of a tile's ready flag. -/
def flagWord (s : State) (ck x : Nat) (c : EngCmd) (i : Nat) : Nat :=
  spadPhys (s.ctx ck x).win.spad (s.ctx ck x).base (c.flagAt + 4 * i) / 4

/-- A ready flag has been stored to by a committed region of some context of its core. -/
def flagSet (s : State) (ck w : Nat) : Bool := (s.core ck).flagsOut.contains w

/-- TILE_FIRE (R288): the ready flag of tile `ev.idx` has been stored to. -/
def execTileFire (s : State) : Out :=
  let ck := s.ev.core
  let x := s.ev.ctx
  let n := s.ev.ectx
  match (s.eng ck x n).find s.ev.num with
  | none => .next s
  | some c =>
    if c.started && c.ready && c.verdict.isNone && decide (s.ev.idx < c.ntiles) && flagSet s ck (flagWord s ck x c s.ev.idx) then
      .next ((fireTile s ck x n c s.ev.idx).getD s)
    else .next s

/-- R288: the flags of a collective that ends are forgotten. -/
def dropFlags (s : State) (ck x : Nat) (c : EngCmd) : State :=
  let ws := (List.range c.ntiles).map (flagWord s ck x c)
  if c.ntiles = 0 then s
  else s.modCore ck (fun k => { k with
    flagsOut := k.flagsOut.filter (fun w => !ws.contains w)
    ctxs := k.ctxs.map (fun p => (p.1, { p.2 with flags := p.2.flags.filter (fun w => !ws.contains w) })) })

/-- The tiled collective in flight on a descriptor, in the launch of a context: its context, engine context and command. -/
def findTiled (s : State) (launch desc : Nat) : Option (Nat × Nat × Nat × EngCmd) :=
  ((members s launch).flatMap (fun m =>
    (s.ctx m.1 m.2).ec.flatMap (fun e =>
      (e.2.cmds.filter (fun c => c.op == 9 && c.desc == desc && c.ntiles != 0)).map (fun c => (m.1, m.2, e.1, c))))).head?

/-- R288: `tready`: the state once its tile has fired, nothing while it has to wait, or its failure. -/
def fireReady (s : State) (ck x : Nat) (c : EngCmd) : Rd State :=
  let i := c.opnd % 65536
  match findTiled s (s.ctx ck x).launch c.desc with
  | none => .bad (fail eIndex)
  | some (tk, tx, tn, t) =>
    if t.ntiles ≤ i then .bad (fail eIndex)
    else if !t.ready || t.verdict.isSome then .wait
    else match fireTile s tk tx tn t i with | some s1 => .ok s1 | none => .wait

-- windows (R289)

/-- Pieces of a range that lie in one 64 KiB page each. -/
def pagePieces : Nat → Nat → Nat → List (Nat × Nat)
  | 0, _, _ => []
  | fuel + 1, a, n =>
    if n = 0 then [] else let k := min n (65536 - a % 65536); (a, k) :: pagePieces fuel (a + k) (n - k)

/-- R289: HOME as fabric ranges with their offsets in HOME. -/
def homePages (s : State) (ck x base : Nat) : List (Nat × Nat) → Rd (List (Nat × Nat × Nat))
  | [] => .ok []
  | (a, n) :: t =>
    match reachEng s ck x a .write with
    | .miss => .wait
    | .trap k => .bad (fail (eOfCause k) a)
    | .ok g =>
      match g.place with
      | .hbm fa => (homePages s ck x base t).map (fun l => (fa, a - base, n) :: l)
      | _ => .bad (fail eProtection a)

/-- R289: `coll` of KIND 5 registers a window. -/
def registerWindow (s : State) (ck x : Nat) (c : EngCmd) : Rd State :=
  let rb := collBytes c * formatBits (collRfmt c) / formatBits (collFmt c)
  let home := c.word 0x28
  (collGroup s ck x c).bind (fun g =>
  (Rd.check (s.windows.any (fun w => w.id == collWindow c)) (fail eBadBlock)).bind (fun _ =>
  (Rd.check (decide (Config.podWindows ≤ s.windows.length)) (fail eResource)).bind (fun _ =>
  (Rd.check (decide (5 ≤ collOpr c)) (fail eAtomic)).bind (fun _ =>
  (homePages s ck x home (pagePieces (rb / 65536 + 2) home rb)).map (fun l =>
    let w : Window :=
      { id := collWindow c, launch := (s.ctx ck x).launch, pkg := pkgOf ck, pasid := (s.ctx ck x).pasid, members := g
        opr := collOpr c, fmt := collFmt c, rfmt := collRfmt c, part := bitsOf (c.word 0x48) 13 1 == 1
        timeout := collTimeout c, home := l, bytes := collBytes c
        maddrs := (List.range g.length).map (fun i => fieldAt c.data (8 * i) 8) }
    { s with windows := s.windows ++ [w] })))))

/-- R289: `coll` of KIND 6 releases a window of the launch. -/
def releaseByColl (s : State) (ck x : Nat) (c : EngCmd) : Rd State :=
  match findWindow (collWindow c) s.windows with
  | none => .bad (fail eBadBlock)
  | some w => if w.launch = (s.ctx ck x).launch then .ok (releaseWindow s w) else .bad (fail eBadBlock)

/-- R290: the window of an `mred` or `mldr` and the issuer's member index. -/
def windowOf (s : State) (ck x : Nat) (c : EngCmd) : Rd (Window × Nat) :=
  match findWindow (bitsOf (c.word 0x10) 0 8) s.windows with
  | none => .bad (fail eBadBlock)
  | some w =>
    let bad := c.word 0x10 / 256 != 0 || c.word 0x20 % 128 != 0 || c.word 0x28 == 0 || c.word 0x28 % 128 != 0 ||
      decide (w.bytes < c.word 0x20 + c.word 0x28) || !w.members.contains (memberKey ck x) || !declares s ck x 5
    (Rd.check bad (fail eBadBlock)).map (fun _ => (w, w.members.idxOf (memberKey ck x)))

/-- R290: what `mred` sends. -/
def readMred (s : State) (ck x : Nat) (c : EngCmd) : Rd Move :=
  (windowOf s ck x c).bind (fun _ => (rdBytes s ck x (c.word 0x18) (c.word 0x28)).map (fun bs => { data := bs }))

def readMldr (s : State) (ck x : Nat) (c : EngCmd) : Rd Move := (windowOf s ck x c).map (fun _ => {})

/-- R290: the contributions of a started `mred` or `mldr`, one per granule of 128 contribution bytes. -/
def contributions (s : State) (rank ck x n : Nat) (c : EngCmd) : List Contrib :=
  let one (kind i : Nat) (v : BitVec 1024) : Contrib :=
    { kind := kind, elem := c.word 0x20 / 128 + i, rank := rank, val := v, cmd := some (ck, x, n, c.num), laddr := c.word 0x18
      since := s.tick }
  (List.range (c.word 0x28 / 128)).map (fun i =>
    if c.op = 0x0C then one 2 i (BitVec.ofNat 1024 (fieldAt c.data (128 * i) 128)) else one 1 i 0)

/-- R290, R291: a started `mred` or `mldr` joins its rounds; one that names a round its member has missed fails. -/
def joinWindow (s : State) (ck x n : Nat) (c : EngCmd) : State :=
  match (windowOf s ck x c).res with
  | .ok (w, r) =>
    let l := contributions s r ck x n c
    let late := l.any (fun k => w.missed.contains (k.kind, k.elem, k.rank))
    let s1 := { s with windows := s.windows.map (fun y => if y.id = w.id then l.foldl Window.contribute y else y) }
    if late then s1.modCmd ck x n c.num (fun k => { k with verdict := some (fail eAbsent) }) else s1
  | _ => s

/-- A command still waits at a window. -/
def atWindow (s : State) (ck x n num : Nat) : Bool :=
  s.windows.any (fun w => w.contribs.any (fun c => c.cmd == some (ck, x, n, num)))

/-- The first waiting contribution of each member to an element or granule, by rank. -/
def roundOf (w : Window) (kind elem : Nat) : List Contrib :=
  (List.range w.members.length).filterMap (fun r => w.contribs.find? (fun c => c.kind == kind && c.elem == elem && c.rank == r))

/-- The round leaves the window; ranks that took no part have missed it. -/
def closeRound (w : Window) (kind elem : Nat) (cs : List Contrib) : Window :=
  let ranks := cs.map (·.rank)
  { w with contribs := cs.foldl (fun l c => l.erase c) w.contribs
           missed := w.missed ++ ((List.range w.members.length).filter (fun r => !ranks.contains r)).map (fun r => (kind, elem, r)) }

def State.setWindow (s : State) (w : Window) : State :=
  { s with windows := s.windows.map (fun y => if y.id = w.id then w else y) }

/-- The fabric address of a byte of HOME. -/
def homeByte (w : Window) (o : Nat) : Nat :=
  match w.home.find? (fun h => decide (h.2.1 ≤ o) && decide (o < h.2.1 + h.2.2)) with
  | some h => h.1 + (o - h.2.1)
  | none => 0

/-- R290: merged results are written at their home, from an offset in HOME; nothing reaches a home whose clocks stand (R363). -/
def writeHome (s : State) (w : Window) (o : Nat) (bs : List Byte) : State :=
  let cells : List Host.Cell := (List.range bs.length).map (fun i => (homeByte w (o + i), bs.getD i 0))
  s.performCells (.hbm 0) (cells.filter (fun c => s.clocked (diePkg (homeOf c.1))))

/-- R291: the commands of a round take a failure. -/
def failRound (s : State) (cs : List Contrib) (f : EngFail) : State :=
  cs.foldl (fun s c =>
    match c.cmd with
    | some (ck, x, n, num) => s.modCmd ck x n num (fun k => { k with verdict := k.verdict.orElse (fun _ => some f) })
    | none => s) s

/-- R290: the buffers of the members of an `mldr` round, as each member's die reads its own. -/
def memberGranules (s : State) (w : Window) (g : Nat) (cs : List Contrib) : Rd (List (List Byte)) :=
  Rd.mapM (fun (c : Contrib) =>
    let m := w.members.getD c.rank 0
    rdBytes s (m / 4) (m % 4) (addr64 (w.maddrs.getD c.rank 0 + 128 * g)) 128) cs

/-- What those reads leave in each member's die. -/
def granuleReads (s : State) (w : Window) (g : Nat) (cs : List Contrib) : State :=
  cs.foldl (fun s c =>
    let m := w.members.getD c.rank 0
    engReads s (m / 4) (m % 4) [(addr64 (w.maddrs.getD c.rank 0 + 128 * g), 128)]) s

/-- R290: an `mldr` round delivers a granule to every requesting command. -/
def deliver (s : State) (w : Window) (g : Nat) (bs : List Byte) (cs : List Contrib) : State :=
  cs.foldl (fun s c =>
    match c.cmd with
    | some (ck, x, n, num) =>
      s.modCmd ck x n num (fun k =>
        let o := (128 * g - k.word 0x20) / (formatBits w.fmt / 8) * (formatBits w.rfmt / 8)
        { k with writes := k.writes ++ [{ va := addr64 (c.laddr + o), bytes := bs }] })
    | none => s) s

/-- R290, R291: a round is over for the contributions `cs`; `whole` says that no member is absent. -/
def endRound (s : State) (w : Window) (kind elem : Nat) (cs : List Contrib) (whole : Bool) : State :=
  let s1 := s.setWindow (closeRound w kind elem cs)
  let s2 := if whole then s1 else failRound s1 cs (fail eAbsent)
  let rb := formatBits w.rfmt / 8
  if !whole && !w.part then s2
  else if kind = 0 then
    writeHome s2 w (elem * rb) (leBytes rb (reduceElem w.fmt w.rfmt w.opr (cs.map (fun c => c.val.toNat))))
  else if kind = 2 then
    let n := 1024 / formatBits w.fmt
    writeHome s2 w (elem * n * rb) (reduceBytes w.fmt w.rfmt w.opr n (cs.map (fun c => leBytes 128 c.val.toNat)))
  else
    match (memberGranules s w elem cs).res with
    | .wait => s
    | .bad f => failRound s1 cs f
    | .ok ls => granuleReads (deliver s2 w elem (reduceBytes w.fmt w.rfmt w.opr (1024 / formatBits w.fmt) ls) cs) w elem cs

/-- R291: members that can take no part, and have not. -/
def roundState (s : State) (w : Window) (cs : List Contrib) : Bool × Bool :=
  let missing := (List.range w.members.length).filter (fun r => !(cs.map (·.rank)).contains r)
  (missing.isEmpty, missing.all (fun r => memberOut s w.pkg (w.members.getD r 0)))

/-- WINDOW_ROUND_MERGE (R290, R291): the round of element or granule `ev.idx` of window `ev.num` is merged, when every
member that can take part has joined it. -/
def execWindowRoundMerge (s : State) : Out :=
  match findWindow s.ev.num s.windows with
  | none => .next s
  | some w =>
    let cs := roundOf w s.ev.val s.ev.idx
    let r := roundState s w cs
    if cs.isEmpty || !r.2 then .next s else .next (endRound s w s.ev.val s.ev.idx cs r.1)

/-- MEMBER_ABSENT_TIMEOUT (R291): TIMEOUT has passed since the first arrival of a round that some member has not
joined. -/
def execMemberAbsentTimeout (s : State) : Out :=
  match findWindow s.ev.num s.windows with
  | none => .next s
  | some w =>
    let cs := roundOf w s.ev.val s.ev.idx
    let first := cs.foldl (fun m c => min m c.since) s.tick
    if cs.isEmpty || decide (s.tick < first + w.timeout) then .next s
    else .next (endRound s w s.ev.val s.ev.idx cs (roundState s w cs).1)

end Sys2Proof.Machine
end

