-- ==== Sys2Proof/Machine/Amp.lean ====
section
/-!
DEFINITION. The amplitude engine (R66, R202 to R208): `ae.map` with its forms, `ae.gate`, `ae.swap`, `ae.norm` and
`ae.proj`, matched among the members' engines and performed together.
-/

namespace Sys2Proof.Machine

/-- An amplitude-engine failure with its kind. -/
def aeFail (kind : Nat) : EngFail := { code := eAmp, kind := kind }

-- the map (Table 7.6)

def mapNq (c : EngCmd) : Nat := bitsOf (c.word 0x18) 0 6
def mapLbits (c : EngCmd) : Nat := bitsOf (c.word 0x18) 8 6
def mapDbits (c : EngCmd) : Nat := bitsOf (c.word 0x18) 14 2
def mapPbits (c : EngCmd) : Nat := bitsOf (c.word 0x18) 16 4
def mapDies (c : EngCmd) : List Nat := (List.range 4).filter (fun d => bitsOf (c.word 0x20) d 1 == 1)
def mapPkgs (c : EngCmd) : List Nat := (List.range 512).filter (fun p => bitsOf (fieldAt c.data (p / 8) 1) (p % 8) 1 == 1)
def mapBytes (c : EngCmd) : List Byte := (c.body.drop 0x40).take 48

/-- A qubit's place: kind 0 local, 1 die, 2 package, 3 unused; and the position. -/
def qubitKind (b : Byte) : Nat := b.toNat / 64
def placePos (b : Byte) : Nat := b.toNat % 64
def placeByte (kind pos : Nat) : Byte := BitVec.ofNat 8 (64 * kind + pos)

/-- R203: every position of a kind appears exactly once. -/
def positionsOk (q : List Byte) (kind n : Nat) : Bool :=
  let ps := (q.filter (fun b => qubitKind b == kind)).map placePos
  ps.length == n && (List.range n).all (fun i => ps.contains i)

/-- R203: the conditions on a map that all members share. -/
def mapOk (c : EngCmd) : Bool :=
  let nq := mapNq c
  let q := (mapBytes c).take nq
  decide (1 ≤ nq) && decide (nq ≤ 44) && decide (12 ≤ mapLbits c) && decide (mapLbits c ≤ 34) && decide (mapDbits c ≤ 2) &&
  decide (mapPbits c ≤ 9) && nq == mapLbits c + mapDbits c + mapPbits c &&
  positionsOk q 0 (mapLbits c) && positionsOk q 1 (mapDbits c) && positionsOk q 2 (mapPbits c) &&
  ((mapBytes c).drop nq).all (· == 0xC0) &&
  (mapDies c).length == 2 ^ mapDbits c && (mapPkgs c).length == 2 ^ mapPbits c

/-- Table 7.6: reserved bits. -/
def mapReserved (c : EngCmd) : Bool :=
  bitsOf (c.word 0x18) 6 2 != 0 || c.word 0x18 / 2 ^ 20 != 0 || c.word 0x20 / 16 != 0 || c.word 0x30 != 0 || c.word 0x38 != 0

/-- Members of a map as die keys. -/
def membersOf (dies pkgs : List Nat) : List Nat := pkgs.flatMap (fun p => dies.map (fun d => 4 * p + d))

/-- R203: the array lies in the die's HBM. -/
def arrayAt (s : State) (ck x : Nat) : List (Nat × Nat) → Rd Unit
  | [] => .ok ()
  | (a, _) :: t =>
    match reachEng s ck x a .both with
    | .miss => .wait
    | .trap k => .bad (fail (eOfCause k) a)
    | .ok g =>
      match g.place with
      | .hbm fa => if homeOf fa = dieOf ck then arrayAt s ck x t else .bad (aeFail 1)
      | _ => .bad (aeFail 1)

-- words of the other bodies

def gateSlot (c : EngCmd) : Nat := bitsOf (c.word 0x10) 0 8
def gateK (c : EngCmd) : Nat := bitsOf (c.word 0x10) 8 2
def gateTargets (c : EngCmd) : List Nat := (List.range (gateK c)).map (fun i => bitsOf (c.word 0x10) (10 + 6 * i) 6)

/-- Conditions of a CTRL or SEL word: qubit and required value. -/
def conditions (w : Nat) : List (Nat × Nat) :=
  (List.range (bitsOf w 56 4)).map (fun i => (bitsOf w (7 * i) 6, bitsOf w (7 * i + 6) 1))

/-- CTRL: reserved bits and unused controls are zero, and NC is at most 8. -/
def ctrlWordOk (w : Nat) : Bool :=
  let n := bitsOf w 56 4
  decide (n ≤ 8) && w / 2 ^ 60 == 0 && bitsOf w (7 * n) (56 - 7 * n) == 0

def gateReserved (c : EngCmd) : Bool :=
  let k := gateK c
  c.word 0x10 / 2 ^ 28 != 0 || bitsOf (c.word 0x10) (10 + 6 * k) (18 - 6 * k) != 0 || !ctrlWordOk (c.word 0x18)

/-- What an `ae.*` command reads as it starts, or the failures that need no state. -/
def readAmp (s : State) (ck x : Nat) (c : EngCmd) : Rd Move :=
  if c.op = 0x11 ∧ c.flags = 1 then
    let w := c.word 0x18
    let n := bitsOf w 8 8 + 1
    (Rd.check (w / 2 ^ 16 != 0) (fail eBadBlock)).bind (fun _ =>
    (Rd.check (decide (256 < bitsOf w 0 8 + n)) (aeFail 6)).bind (fun _ =>
      (rdBytes s ck x (c.word 0x10) (32 * n)).map (fun bs => { data := bs })))
  else if c.op = 0x11 ∧ c.flags = 0 then
    (Rd.check (mapReserved c) (fail eBadBlock)).bind (fun _ =>
    (rdBytes s ck x (c.word 0x28) 64).bind (fun bs =>
      let c' := { c with data := bs }
      let mine := (membersOf (mapDies c') (mapPkgs c')).contains (dieOf ck)
      (Rd.check (!mapOk c' || !mine) (aeFail 1)).map (fun _ => { data := bs })))
  else if c.op = 0x12 then (Rd.check (gateReserved c) (fail eBadBlock)).map (fun _ => {})
  else if c.op = 0x13 then
    (Rd.check (bitsOf (c.word 0x10) 6 2 != 0 || c.word 0x10 / 2 ^ 14 != 0) (fail eBadBlock)).map (fun _ => {})
  else if c.op = 0x14 ∨ c.op = 0x15 then
    (Rd.check (decide (8 < bitsOf (c.word 0x10) 56 4)) (fail eBadBlock)).map (fun _ => {})
  else .ok {}

/-- R204: the matrix memory is loaded. -/
def performMatrices (s : State) (ck : Nat) (c : EngCmd) : State :=
  let w := c.word 0x18
  s.modDie (dieOf ck) (fun d => { d with matrix :=
    (List.range (bitsOf w 8 8 + 1)).foldl (fun t i => t.set (bitsOf w 0 8 + i) (BitVec.ofNat 256 (fieldAt c.data (32 * i) 32))) d.matrix })

/-- A started state command is received by its die's engine. -/
def joinAmp (s : State) (ck x n num : Nat) : State :=
  s.modDie (dieOf ck) (fun d => { d with ampQ := d.ampQ ++ [{ core := ck, ctx := x, ectx := n, num := num }] })

-- a member in a state command

/-- A member as a state command finds it: its die, its command, its map and local array, an amplitude as its 8 bytes, and which
offsets of the array it writes. -/
structure AmpMember where
  dk   : Nat
  at_  : AmpCmd
  cmd  : EngCmd
  amp  : Amp
  arr  : List Nat := []
  wrote : List Bool := []
  deriving DecidableEq, Repr

/-- The value of a die or package position bit of a member (R203). -/
def memberBit (m : AmpMember) (kind pos : Nat) : Nat :=
  if kind = 1 then bitsOf (m.amp.dies.idxOf (m.dk % 4)) pos 1 else bitsOf (m.amp.pkgs.idxOf (diePkg m.dk)) pos 1

/-- The value of qubit q at a member's offset. -/
def qubitAt (m : AmpMember) (off q : Nat) : Nat :=
  let b := m.amp.qmap.getD q 0xC0
  if qubitKind b = 0 then bitsOf off (placePos b) 1 else memberBit m (qubitKind b) (placePos b)

/-- The amplitude at a member's offset meets every condition. -/
def meets (m : AmpMember) (cs : List (Nat × Nat)) (off : Nat) : Bool := cs.all (fun c => qubitAt m off c.1 == c.2)

/-- Amplitudes of bytes. -/
def ampsOf : Nat → List Byte → List Nat
  | 0, _ => []
  | n + 1, bs => leNat (bs.take 8) :: ampsOf n (bs.drop 8)

/-- The member's array. -/
def readArray (s : State) (m : AmpMember) : Rd AmpMember :=
  let n := 2 ^ m.amp.lbits
  (rdBytes s m.at_.core m.at_.ctx m.amp.lbase (8 * n)).map (fun bs => { m with arr := ampsOf n bs })

/-- The member writes the offsets that `f` names too. -/
def AmpMember.writes (m : AmpMember) (f : Nat → Bool) : AmpMember :=
  { m with wrote := (List.range m.arr.length).map (fun o => m.wrote.getD o false || f o) }

def reOf (a : Nat) : Nat := a % 2 ^ 32
def imOf (a : Nat) : Nat := a / 2 ^ 32
def ampOf (re im : Nat) : Nat := re + im * 2 ^ 32

-- turns (R206)

/-- The bits of a number with bit `b` set to `v`. -/
def putBit (n b v : Nat) : Nat := n - bitsOf n b 1 * 2 ^ b + v * 2 ^ b

/-- The member that differs from `m` only in a remote bit. -/
def partner (ms : List AmpMember) (m : AmpMember) (kind pos : Nat) : Option AmpMember :=
  ms.find? (fun y =>
    let dj := m.amp.dies.idxOf (m.dk % 4)
    let pj := m.amp.pkgs.idxOf (diePkg m.dk)
    let flip (j : Nat) : Nat := putBit j pos (1 - bitsOf j pos 1)
    y.amp.dies.idxOf (y.dk % 4) == (if kind = 1 then flip dj else dj) &&
    y.amp.pkgs.idxOf (diePkg y.dk) == (if kind = 2 then flip pj else pj))

/-- R206 step 2 for one member: the amplitudes with local bit `b` unlike its own remote value come from its partner. -/
def ampExchange (ms : List AmpMember) (kind pos b : Nat) (m : AmpMember) : AmpMember :=
  let v := memberBit m kind pos
  match partner ms m kind pos with
  | none => m
  | some y =>
    { m.writes (fun o => bitsOf o b 1 != v) with arr := (List.range m.arr.length).map (fun o =>
        if bitsOf o b 1 = v then m.arr.getD o 0 else y.arr.getD (putBit o b v) 0) }

/-- R206 steps 2 and 3: qubit `q` turns to local position `b`. -/
def turn (ms : List AmpMember) (q b : Nat) : List AmpMember :=
  match ms with
  | [] => []
  | m :: _ =>
    let old := m.amp.qmap.getD q 0xC0
    let other := m.amp.qmap.idxOf (placeByte 0 b)
    (ms.map (ampExchange ms (qubitKind old) (placePos old) b)).map (fun m =>
      { m with amp := { m.amp with qmap := setAt (setAt m.amp.qmap q (placeByte 0 b)) other old } })

/-- R206 step 1: the highest local position whose qubit is neither target nor control. -/
def freeLocal (a : Amp) (busy : List Nat) : Option Nat :=
  ((List.range a.lbits).reverse).find? (fun b => !busy.contains (a.qmap.idxOf (placeByte 0 b)))

/-- Turns of a gate in the order of its targets: the members, the turns made, and whether a position was missing. -/
def turnAll (busy : List Nat) : List Nat → List AmpMember → Nat → List AmpMember × Nat × Bool
  | [], ms, n => (ms, n, false)
  | q :: t, ms, n =>
    match ms with
    | [] => (ms, n, false)
    | m :: _ =>
      if qubitKind (m.amp.qmap.getD q 0xC0) = 0 then turnAll busy t ms n
      else
        match freeLocal m.amp busy with
        | none => (ms, n, true)
        | some b => turnAll busy t (turn ms q b) (n + 1)

-- the gate (R66, R205)

/-- Element (i, j) of a member's matrix. -/
def matrixAt (d : Die) (slot k i j : Nat) : Nat :=
  let o := 8 * (2 ^ k * i + j)
  bitsOf (d.matrix.get (slot + o / 32) 0).toNat (8 * (o % 32)) 64

/-- R66: one output amplitude from a row of the matrix and the group. -/
def gateRow (row group : List Nat) : Nat :=
  let ps := row.zip group
  let re := ps.flatMap (fun p =>
    [(val32 (reOf p.1)).mul (val32 (reOf p.2)), ((val32 (imOf p.1)).mul (val32 (imOf p.2))).neg])
  let im := ps.flatMap (fun p =>
    [(val32 (reOf p.1)).mul (val32 (imOf p.2)), (val32 (imOf p.1)).mul (val32 (reOf p.2))])
  ampOf (sumRound 0 re) (sumRound 0 im)

/-- The offset of the group's amplitude whose targets spell `j`. -/
def groupOffset (a : Amp) (ts : List Nat) (off j : Nat) : Nat :=
  ts.zipIdx.foldl (fun o t => putBit o (placePos (a.qmap.getD t.1 0)) (bitsOf j t.2 1)) off

/-- R205: the gate on a member whose targets are all local. -/
def gateMember (s : State) (slot : Nat) (ts : List Nat) (cs : List (Nat × Nat)) (m : AmpMember) : AmpMember :=
  let k := ts.length
  let d := s.die m.dk
  let mat := (List.range (2 ^ k)).map (fun i => (List.range (2 ^ k)).map (matrixAt d slot k i))
  { m.writes (meets m cs) with arr := (List.range m.arr.length).map (fun o =>
      if meets m cs o then
        let i := (ts.zipIdx.map (fun t => qubitAt m o t.1 * 2 ^ t.2)).sum
        gateRow (mat.getD i []) ((List.range (2 ^ k)).map (fun j => m.arr.getD (groupOffset m.amp ts o j) 0))
      else m.arr.getD o 0) }

-- norm and projection (R208)

/-- The squares of the selected amplitudes' components. -/
def squares (cs : List (Nat × Nat)) (m : AmpMember) : List Val :=
  m.arr.zipIdx.flatMap (fun a =>
    if meets m cs a.2 then
      let re := val32 (reOf a.1)
      let im := val32 (imOf a.1)
      [re.mul re, im.mul im]
    else [])

/-- R208: P over all members. -/
def normOf (cs : List (Nat × Nat)) (ms : List AmpMember) : Nat := sumRound 0 (ms.flatMap (squares cs))

/-- R208: P is finite and positive. -/
def usable (p : Nat) : Bool :=
  match val32 p with
  | .fin n m _ => !n && m != 0
  | _ => false

/-- R208: a member after `ae.proj`. -/
def projMember (cs : List (Nat × Nat)) (f : Nat) (m : AmpMember) : AmpMember :=
  { m.writes (fun _ => true) with arr := m.arr.zipIdx.map (fun a =>
      if meets m cs a.2 then ampOf (mulF 0 (reOf a.1) f) (mulF 0 (imOf a.1) f) else 0) }

-- performing together (R202)

/-- The body words that must agree. -/
def agreeing (c : EngCmd) : List Nat :=
  if c.op = 0x11 then (if c.flags = 0 then ((List.range 11).map (fun i => c.word (0x18 + 8 * i))) else [])
  else if c.op = 0x12 then [c.word 0x10, c.word 0x18]
  else [c.word 0x10]

/-- Operand faults of a state command under a state of `nq` qubits (R205, R207, R208). -/
def operandFault (a : Amp) (c : EngCmd) : Bool :=
  if c.op = 0x12 then
    let qs := gateTargets c ++ (conditions (c.word 0x18)).map (·.1)
    gateK c == 0 || !qs.all (fun q => decide (q < a.nq)) || !decide qs.Nodup || decide (256 < gateSlot c + 4 ^ (gateK c - 1))
  else if c.op = 0x13 then
    let q := bitsOf (c.word 0x10) 0 6
    let p := bitsOf (c.word 0x10) 8 6
    decide (a.nq ≤ q) || decide (a.nq ≤ p) || qubitKind (a.qmap.getD q 0) == 0 || qubitKind (a.qmap.getD p 0) != 0
  else if c.op = 0x14 ∨ c.op = 0x15 then
    let qs := (conditions (c.word 0x10)).map (·.1)
    !qs.all (fun q => decide (q < a.nq)) || !decide qs.Nodup || !ctrlWordOk (c.word 0x10)
  else false

/-- What keeps a member's own part of a state command from performing. -/
def memberFault (s : State) (m : AmpMember) : Rd Unit :=
  let c := m.cmd
  let result : List EWrite := [{ va := c.word 0x18, bytes := zeros 4 }]
  if c.op = 0x11 ∧ c.flags = 0 then
    let n := 8 * 2 ^ m.amp.lbits
    (Rd.check (s.die m.dk).amp.isSome (aeFail 2)).bind (fun _ =>
    (Rd.check (m.amp.lbase % 64 != 0) (aeFail 1)).bind (fun _ =>
      arrayAt s m.at_.core m.at_.ctx (pagePieces (n / 65536 + 2) m.amp.lbase n)))
  else if c.op = 0x11 then
    checkWrites s m.at_.core m.at_.ctx c [{ va := addr64 (c.desc + 0x40), bytes := zeros 48 }]
  else
    (Rd.check (operandFault m.amp c) (aeFail 6)).bind (fun _ =>
      if c.op = 0x14 ∨ c.op = 0x15 then
        (Rd.check (c.word 0x18 % 4 != 0) (fail eAlignment (c.word 0x18))).bind (fun _ =>
          checkWrites s m.at_.core m.at_.ctx c result)
      else .ok ())

/-- R205, R206, R208: the amplitudes that a member writes. -/
def arrayWrites (m : AmpMember) : List EWrite :=
  ((List.range m.arr.length).filter (fun o => m.wrote.getD o false)).map (fun o =>
    { va := m.amp.lbase + 8 * o, bytes := leBytes 8 (m.arr.getD o 0) })

/-- A member may write what it has to write. -/
def checkArray (s : State) (m : AmpMember) : Rd Unit := checkWrites s m.at_.core m.at_.ctx m.cmd (arrayWrites m)

/-- Members' amplitudes and maps go to memory and to their engines. -/
def storeMember (s : State) (m : AmpMember) : State :=
  let s1 := (performWrites s m.at_.core m.at_.ctx m.cmd (arrayWrites m)).1
  s1.modDie m.dk (fun d => { d with amp := some m.amp })

def storeMembers (s : State) (ms : List AmpMember) : State := ms.foldl storeMember s

/-- The members' commands of this step leave their engines, done or failed. -/
def endAmp (s : State) (ms : List AmpMember) (f : AmpMember → Option EngFail) : State :=
  ms.foldl (fun s m =>
    (s.modDie m.dk (fun d => { d with ampQ := d.ampQ.drop 1 })).modCmd m.at_.core m.at_.ctx m.at_.ectx m.at_.num
      (fun c => { c with ready := true, verdict := f m })) s

/-- R208: every member writes P at its RESULT. -/
def writeResults (s : State) (ms : List AmpMember) (p : Nat) : State :=
  ms.foldl (fun s m => (performWrites s m.at_.core m.at_.ctx m.cmd [{ va := m.cmd.word 0x18, bytes := leBytes 4 p }]).1) s

/-- R206: turns are counted at each member's die. -/
def countTurns (s : State) (ms : List AmpMember) (n : Nat) : State :=
  ms.foldl (fun s m => s.countBy (diePkg m.dk) (dieTel m.dk 0x38) n) s

/-- What a state command makes of its members: the members after it, the turns made, P where it writes P, and its failure. -/
structure AmpDone where
  ms    : List AmpMember
  turns : Nat := 0
  p     : Option Nat := none
  fail_ : Option EngFail := none
  deriving DecidableEq, Repr

/-- R205 to R208: what a gate, a swap, a norm or a projection does to its members. -/
def ampDone (s : State) (ms : List AmpMember) (c : EngCmd) : AmpDone :=
  if c.op = 0x12 then
    let ts := gateTargets c
    let cs := conditions (c.word 0x18)
    let r := turnAll (ts ++ cs.map (·.1)) ts ms 0
    if r.2.2 then { ms := r.1, turns := r.2.1, fail_ := some (aeFail 5) }
    else { ms := r.1.map (gateMember s (gateSlot c) ts cs), turns := r.2.1 }
  else if c.op = 0x13 then
    let b := match ms with | m :: _ => placePos (m.amp.qmap.getD (bitsOf (c.word 0x10) 8 6) 0) | [] => 0
    { ms := turn ms (bitsOf (c.word 0x10) 0 6) b, turns := 1 }
  else
    let cs := conditions (c.word 0x10)
    let p := normOf cs ms
    if c.op = 0x14 then { ms := ms, p := some p }
    else if usable p then { ms := ms.map (projMember cs (rsqF p)), p := some p }
    else { ms := ms, p := some p, fail_ := some (aeFail 7) }

/-- A state command whose members agree performs, if every member may write what it has to. -/
def performAmp (s : State) (ms : List AmpMember) (c : EngCmd) : State :=
  let d := ampDone s ms c
  match (Rd.mapM (checkArray s) d.ms).res with
  | .wait => s
  | .bad f => endAmp s ms (fun _ => some f)
  | .ok _ =>
    let s1 := match d.p with | some p => writeResults s ms p | none => s
    endAmp (storeMembers (countTurns s1 ms d.turns) d.ms) ms (fun _ => d.fail_)

/-- R203, R204: the commands that establish or release a state. -/
def performMap (s : State) (ms : List AmpMember) (c : EngCmd) : State :=
  let s1 := ms.foldl (fun s m =>
    if c.flags = 0 then s.modDie m.dk (fun d => { d with amp := some m.amp })
    else (performWrites (s.modDie m.dk (fun d => { d with amp := none })) m.at_.core m.at_.ctx m.cmd
      [{ va := addr64 (m.cmd.desc + 0x40), bytes := m.amp.qmap }]).1) s
  endAmp s1 ms (fun _ => none)

/-- The state a map command would establish. -/
def mapAmp (c : EngCmd) : Amp :=
  { lbase := c.word 0x10, nq := mapNq c, lbits := mapLbits c, dbits := mapDbits c, pbits := mapPbits c
    dies := mapDies c, pkgs := mapPkgs c, qmap := mapBytes c }

/-- The head of a die's queue as a member: with the die's state, or with the state it would establish. -/
def headMember (s : State) (dk : Nat) : Option AmpMember :=
  match (s.die dk).ampQ.head? with
  | none => none
  | some a =>
    match (s.eng a.core a.ctx a.ectx).find a.num with
    | none => none
    | some c =>
      if c.op = 0x11 ∧ c.flags = 0 then some { dk := dk, at_ := a, cmd := c, amp := mapAmp c }
      else (s.die dk).amp.map (fun y => { dk := dk, at_ := a, cmd := c, amp := y })

/-- R202: the members' faults, one for each, or that one of them has to wait. -/
def memberFaults (s : State) : List AmpMember → Option (List (Option EngFail))
  | [] => some []
  | m :: t =>
    match (memberFault s m).res, memberFaults s t with
    | .wait, _ => none
    | _, none => none
    | .bad f, some l => some (some f :: l)
    | .ok _, some l => some (none :: l)

/-- A command whose members are all there. -/
def runAmp (s : State) (m : AmpMember) (ms : List AmpMember) : State :=
  let c := m.cmd
  if !ms.all (fun y => y.cmd.op == c.op && y.cmd.flags == c.flags && agreeing y.cmd == agreeing c) then
    endAmp s ms (fun _ => some (aeFail 4))
  else
    match memberFaults s ms with
    | none => s
    | some fs =>
      match fs.filterMap id with
      | f :: _ =>
        let own := ms.zip fs
        endAmp s ms (fun y => match own.find? (fun p => p.1.dk == y.dk) with
          | some (_, some g) => some g
          | _ => some f)
      | [] =>
        if c.op = 0x11 then performMap s ms c
        else
          let reads (t : State) : State := ms.foldl (fun t m => engReads t m.at_.core m.at_.ctx (readArray s m).log) t
          match (Rd.mapM (readArray s) ms).res with
          | .wait => s
          | .bad f => reads (endAmp s ms (fun _ => some f))
          | .ok l => reads (performAmp s l c)

/-- R355: a member die of a state is out of service or out of reach. -/
def dieGone (s : State) (dk : Nat) : Bool := (s.die dk).out || !s.hasPkg (diePkg dk)

/-- AE_STATE_COMMAND_PERFORM (R202, R355): the next state command of the engine of die `ev.die` performs, when every member of
its state has received its own. -/
def execAeStateCommandPerform (s : State) : Out :=
  let dk := s.ev.die
  match headMember s dk with
  | some m =>
    let ms := (membersOf m.amp.dies m.amp.pkgs).filterMap (headMember s)
    if (membersOf m.amp.dies m.amp.pkgs).any (dieGone s) then .next (endAmp s [m] (fun _ => some (aeFail 4)))
    else if ms.length = (membersOf m.amp.dies m.amp.pkgs).length then .next (runAmp s m ms) else .next s
  | none =>
    match (s.die dk).ampQ.head? with
    | none => .next s
    | some a =>
      let s1 := s.modDie dk (fun d => { d with ampQ := d.ampQ.drop 1 })
      .next (s1.modCmd a.core a.ctx a.ectx a.num (fun c => { c with ready := true, verdict := some (aeFail 3) }))

end Sys2Proof.Machine
end

