-- ==== Sys2Proof/Decode.lean ====
section
/-!
DEFINITION. The decoder and the encoder. A word is read as a number, bit 0 its least significant bit (R8); a decoder is
given the slot the word stands in (Table 0.5), since one word means different things in different slots. Field values
that a form's own rule refuses are left to `Instr.wf`; undefined opcodes and non-zero bits of fields that a form does
not use are refused here (R74, R76 to R79, R82).
-/

namespace Sys2Proof

/-- The slot classes of Table 0.5 that carry an instruction, and the group-table entry. -/
inductive Slot where
  | s | a | g | e | x | entry
  /-- a step of the machine, which has no encoding -/
  | step
  deriving DecidableEq, Repr

/-- Bits [lo + n − 1 : lo] of a number. -/
def bits (w lo n : Nat) : Nat := w / 2 ^ lo % 2 ^ n

/-- The same as a field. -/
def fld (w lo n : Nat) : BitVec n := BitVec.ofNat n (w / 2 ^ lo)

/-- A field at its place. -/
def put {n : Nat} (v : BitVec n) (lo : Nat) : Nat := v.toNat * 2 ^ lo

/-- Decode the S-slot syllable `w` (R73, R76, Table 3.3). -/
def decodeS (w : Nat) : Option Instr :=
  match bits w 26 6 with
  | 0 => if bits w 0 26 = 0 then some .nop else none
  | 1 => if bits w 0 11 = 0 then some (.add (fld w 21 5) (fld w 16 5) (fld w 11 5)) else none
  | 2 => if bits w 0 11 = 0 then some (.sub (fld w 21 5) (fld w 16 5) (fld w 11 5)) else none
  | 3 => if bits w 0 11 = 0 then some (.mul (fld w 21 5) (fld w 16 5) (fld w 11 5)) else none
  | 4 => if bits w 0 11 = 0 then some (.mulh (fld w 21 5) (fld w 16 5) (fld w 11 5)) else none
  | 5 => if bits w 0 11 = 0 then some (.mulhn (fld w 21 5) (fld w 16 5) (fld w 11 5)) else none
  | 6 => if bits w 0 11 = 0 then some (.div (fld w 21 5) (fld w 16 5) (fld w 11 5)) else none
  | 7 => if bits w 0 11 = 0 then some (.divn (fld w 21 5) (fld w 16 5) (fld w 11 5)) else none
  | 8 => if bits w 0 11 = 0 then some (.rem (fld w 21 5) (fld w 16 5) (fld w 11 5)) else none
  | 9 => if bits w 0 11 = 0 then some (.remn (fld w 21 5) (fld w 16 5) (fld w 11 5)) else none
  | 10 => if bits w 0 11 = 0 then some (.and (fld w 21 5) (fld w 16 5) (fld w 11 5)) else none
  | 11 => if bits w 0 11 = 0 then some (.or (fld w 21 5) (fld w 16 5) (fld w 11 5)) else none
  | 12 => if bits w 0 11 = 0 then some (.xor (fld w 21 5) (fld w 16 5) (fld w 11 5)) else none
  | 13 => if bits w 0 11 = 0 then some (.andn (fld w 21 5) (fld w 16 5) (fld w 11 5)) else none
  | 14 => if bits w 0 11 = 0 then some (.shl (fld w 21 5) (fld w 16 5) (fld w 11 5)) else none
  | 15 => if bits w 0 11 = 0 then some (.shrl (fld w 21 5) (fld w 16 5) (fld w 11 5)) else none
  | 16 => if bits w 0 11 = 0 then some (.shra (fld w 21 5) (fld w 16 5) (fld w 11 5)) else none
  | 17 => if bits w 0 11 = 0 then some (.rotl (fld w 21 5) (fld w 16 5) (fld w 11 5)) else none
  | 18 => if bits w 0 11 = 0 then some (.min (fld w 21 5) (fld w 16 5) (fld w 11 5)) else none
  | 19 => if bits w 0 11 = 0 then some (.max (fld w 21 5) (fld w 16 5) (fld w 11 5)) else none
  | 20 => if bits w 0 11 = 0 then some (.minn (fld w 21 5) (fld w 16 5) (fld w 11 5)) else none
  | 21 => if bits w 0 11 = 0 then some (.maxn (fld w 21 5) (fld w 16 5) (fld w 11 5)) else none
  | 22 => if bits w 0 16 = 0 then some (.clz (fld w 21 5) (fld w 16 5)) else none
  | 23 => if bits w 0 16 = 0 then some (.ctz (fld w 21 5) (fld w 16 5)) else none
  | 24 => if bits w 0 16 = 0 then some (.popc (fld w 21 5) (fld w 16 5)) else none
  | 25 => if bits w 6 5 = 0 then some (.addx (fld w 21 5) (fld w 16 5) (fld w 11 5) (fld w 3 3) (fld w 0 3)) else none
  | 26 => if bits w 3 8 = 0 then some (.sel (fld w 21 5) (fld w 16 5) (fld w 11 5) (fld w 0 3)) else none
  | 27 => some (.addi (fld w 21 5) (fld w 16 5) (fld w 0 16))
  | 28 => some (.andi (fld w 21 5) (fld w 16 5) (fld w 0 16))
  | 29 => some (.ori (fld w 21 5) (fld w 16 5) (fld w 0 16))
  | 30 => some (.xori (fld w 21 5) (fld w 16 5) (fld w 0 16))
  | 31 => if bits w 6 10 = 0 then some (.shli (fld w 21 5) (fld w 16 5) (fld w 0 6)) else none
  | 32 => if bits w 6 10 = 0 then some (.shrli (fld w 21 5) (fld w 16 5) (fld w 0 6)) else none
  | 33 => if bits w 6 10 = 0 then some (.shrai (fld w 21 5) (fld w 16 5) (fld w 0 6)) else none
  | 34 => if bits w 16 5 = 0 then some (.li (fld w 21 5) (fld w 0 16)) else none
  | 35 => some (.lih (fld w 21 5) (fld w 16 5) (fld w 0 16))
  | 36 => if bits w 4 7 = 0 ∧ bits w 24 2 = 0 then some (.cmpCc (fld w 21 3) (fld w 16 5) (fld w 11 5) (fld w 0 4)) else none
  | 37 => if bits w 4 12 = 0 ∧ bits w 24 2 = 0 then some (.cmpiCc (fld w 21 3) (fld w 16 5) (fld w 0 4)) else none
  | 38 => if bits w 0 11 = 0 ∧ bits w 14 2 = 0 ∧ bits w 19 2 = 0 ∧ bits w 24 2 = 0 then some (.pand (fld w 21 3) (fld w 16 3) (fld w 11 3)) else none
  | 39 => if bits w 0 11 = 0 ∧ bits w 14 2 = 0 ∧ bits w 19 2 = 0 ∧ bits w 24 2 = 0 then some (.por (fld w 21 3) (fld w 16 3) (fld w 11 3)) else none
  | 40 => if bits w 0 11 = 0 ∧ bits w 14 2 = 0 ∧ bits w 19 2 = 0 ∧ bits w 24 2 = 0 then some (.pxor (fld w 21 3) (fld w 16 3) (fld w 11 3)) else none
  | 41 => if bits w 0 16 = 0 ∧ bits w 19 2 = 0 ∧ bits w 24 2 = 0 then some (.pnot (fld w 21 3) (fld w 16 3)) else none
  | 42 => if bits w 16 5 = 0 then some (.gets (fld w 21 5) (fld w 0 16)) else none
  | 43 => if bits w 21 5 = 0 then some (.puts (fld w 16 5) (fld w 0 16)) else none
  | 44 => some (.br (fld w 23 3) (fld w 22 1) (fld w 0 22))
  | 45 => if bits w 0 16 = 0 ∧ bits w 21 5 = 0 then some (.bri (fld w 16 5)) else none
  | 46 => some (.call (fld w 23 3) (fld w 22 1) (fld w 0 22))
  | 47 => if bits w 0 16 = 0 ∧ bits w 21 5 = 0 then some (.ret (fld w 16 5)) else none
  | 48 => if bits w 11 5 = 0 ∧ bits w 24 2 = 0 then some (.loop (fld w 21 3) (fld w 16 5) (fld w 0 11)) else none
  | 49 => if bits w 24 2 = 0 then some (.loopm (fld w 21 3) (fld w 16 5) (fld w 11 5) (fld w 0 11)) else none
  | 50 => if bits w 0 11 = 0 then some (.lstride (fld w 21 5) (fld w 16 5) (fld w 14 2) (fld w 11 3)) else none
  | 51 => if bits w 0 11 = 0 then some (.dispatch (fld w 21 5) (fld w 16 5) (fld w 11 5)) else none
  | 52 => if bits w 0 26 = 0 then some .yield else if bits w 0 26 = 1 then some .yieldPark else none
  | 53 => if bits w 0 26 = 0 then some .exit else none
  | 54 => if bits w 16 10 = 0 then some (.trap (fld w 0 16)) else none
  | 55 => if bits w 0 11 = 0 ∧ bits w 14 2 = 0 ∧ bits w 24 2 = 0 then some (.waitt (fld w 21 3) (fld w 16 5) (fld w 11 3)) else none
  | 56 => if bits w 0 16 = 0 then some (.scopeSet (fld w 21 5) (fld w 16 5)) else none
  | 57 => if bits w 0 21 = 0 then some (.scopeLoad (fld w 21 5)) else none
  | 58 => if bits w 0 26 = 0 then some .sluice else none
  | _ => none

/-- Decode the A-slot syllable `w` (R73, R77, Table 3.4); the all-zero syllable is an empty slot. -/
def decodeA (w : Nat) : Option Instr :=
  match bits w 26 6 with
  | 1 => some (.ldb (fld w 21 5) (fld w 16 5) (fld w 11 5) (fld w 9 2) (fld w 8 1) (fld w 3 5) (fld w 0 3))
  | 2 => some (.ldbn (fld w 21 5) (fld w 16 5) (fld w 11 5) (fld w 9 2) (fld w 8 1) (fld w 3 5) (fld w 0 3))
  | 3 => some (.ldh (fld w 21 5) (fld w 16 5) (fld w 11 5) (fld w 9 2) (fld w 8 1) (fld w 3 5) (fld w 0 3))
  | 4 => some (.ldhn (fld w 21 5) (fld w 16 5) (fld w 11 5) (fld w 9 2) (fld w 8 1) (fld w 3 5) (fld w 0 3))
  | 5 => some (.ldw (fld w 21 5) (fld w 16 5) (fld w 11 5) (fld w 9 2) (fld w 8 1) (fld w 3 5) (fld w 0 3))
  | 6 => some (.ldwn (fld w 21 5) (fld w 16 5) (fld w 11 5) (fld w 9 2) (fld w 8 1) (fld w 3 5) (fld w 0 3))
  | 7 => some (.ldd (fld w 21 5) (fld w 16 5) (fld w 11 5) (fld w 9 2) (fld w 8 1) (fld w 3 5) (fld w 0 3))
  | 8 => if bits w 8 1 = 0 then some (.stb (fld w 21 5) (fld w 16 5) (fld w 11 5) (fld w 9 2) (fld w 3 5) (fld w 0 3)) else none
  | 9 => if bits w 8 1 = 0 then some (.sth (fld w 21 5) (fld w 16 5) (fld w 11 5) (fld w 9 2) (fld w 3 5) (fld w 0 3)) else none
  | 10 => if bits w 8 1 = 0 then some (.stw (fld w 21 5) (fld w 16 5) (fld w 11 5) (fld w 9 2) (fld w 3 5) (fld w 0 3)) else none
  | 11 => if bits w 8 1 = 0 then some (.std (fld w 21 5) (fld w 16 5) (fld w 11 5) (fld w 9 2) (fld w 3 5) (fld w 0 3)) else none
  | 12 => if bits w 8 3 = 0 then some (.ldfull (fld w 21 5) (fld w 16 5) (fld w 11 5) (fld w 3 5) (fld w 0 3)) else none
  | 13 => if bits w 8 3 = 0 then some (.ldtake (fld w 21 5) (fld w 16 5) (fld w 11 5) (fld w 3 5) (fld w 0 3)) else none
  | 14 => if bits w 8 3 = 0 then some (.stfill (fld w 21 5) (fld w 16 5) (fld w 11 5) (fld w 3 5) (fld w 0 3)) else none
  | 15 => if bits w 8 3 = 0 then some (.stforce (fld w 21 5) (fld w 16 5) (fld w 11 5) (fld w 3 5) (fld w 0 3)) else none
  | 16 => if bits w 0 11 = 0 then some (.fetag (fld w 21 5) (fld w 16 5) (fld w 11 5)) else none
  | 17 => if bits w 0 11 = 0 then some (.feset (fld w 21 5) (fld w 16 5) (fld w 11 5)) else none
  | 18 => some (.atomAdd (fld w 21 5) (fld w 16 5) (fld w 11 5) (fld w 8 3) (fld w 3 5) (fld w 0 3))
  | 19 => some (.atomAnd (fld w 21 5) (fld w 16 5) (fld w 11 5) (fld w 8 3) (fld w 3 5) (fld w 0 3))
  | 20 => some (.atomOr (fld w 21 5) (fld w 16 5) (fld w 11 5) (fld w 8 3) (fld w 3 5) (fld w 0 3))
  | 21 => some (.atomXor (fld w 21 5) (fld w 16 5) (fld w 11 5) (fld w 8 3) (fld w 3 5) (fld w 0 3))
  | 22 => some (.atomMin (fld w 21 5) (fld w 16 5) (fld w 11 5) (fld w 8 3) (fld w 3 5) (fld w 0 3))
  | 23 => some (.atomMax (fld w 21 5) (fld w 16 5) (fld w 11 5) (fld w 8 3) (fld w 3 5) (fld w 0 3))
  | 24 => some (.atomMinn (fld w 21 5) (fld w 16 5) (fld w 11 5) (fld w 8 3) (fld w 3 5) (fld w 0 3))
  | 25 => some (.atomMaxn (fld w 21 5) (fld w 16 5) (fld w 11 5) (fld w 8 3) (fld w 3 5) (fld w 0 3))
  | 26 => some (.atomSwap (fld w 21 5) (fld w 16 5) (fld w 11 5) (fld w 8 3) (fld w 3 5) (fld w 0 3))
  | 27 => some (.atomCas (fld w 21 5) (fld w 16 5) (fld w 11 5) (fld w 8 3) (fld w 3 5) (fld w 0 3))
  | 28 => if bits w 8 3 = 0 then some (.atomFadd (fld w 21 5) (fld w 16 5) (fld w 11 5) (fld w 3 5) (fld w 0 3)) else none
  | 29 => if bits w 8 3 = 0 then some (.atomFmin (fld w 21 5) (fld w 16 5) (fld w 11 5) (fld w 3 5) (fld w 0 3)) else none
  | 30 => if bits w 8 3 = 0 then some (.atomFmax (fld w 21 5) (fld w 16 5) (fld w 11 5) (fld w 3 5) (fld w 0 3)) else none
  | 32 => if bits w 21 5 = 0 then some (.redAdd (fld w 16 5) (fld w 11 5) (fld w 8 3) (fld w 3 5) (fld w 0 3)) else none
  | 33 => if bits w 21 5 = 0 then some (.redAnd (fld w 16 5) (fld w 11 5) (fld w 8 3) (fld w 3 5) (fld w 0 3)) else none
  | 34 => if bits w 21 5 = 0 then some (.redOr (fld w 16 5) (fld w 11 5) (fld w 8 3) (fld w 3 5) (fld w 0 3)) else none
  | 35 => if bits w 21 5 = 0 then some (.redXor (fld w 16 5) (fld w 11 5) (fld w 8 3) (fld w 3 5) (fld w 0 3)) else none
  | 36 => if bits w 21 5 = 0 then some (.redMin (fld w 16 5) (fld w 11 5) (fld w 8 3) (fld w 3 5) (fld w 0 3)) else none
  | 37 => if bits w 21 5 = 0 then some (.redMax (fld w 16 5) (fld w 11 5) (fld w 8 3) (fld w 3 5) (fld w 0 3)) else none
  | 38 => if bits w 21 5 = 0 then some (.redMinn (fld w 16 5) (fld w 11 5) (fld w 8 3) (fld w 3 5) (fld w 0 3)) else none
  | 39 => if bits w 21 5 = 0 then some (.redMaxn (fld w 16 5) (fld w 11 5) (fld w 8 3) (fld w 3 5) (fld w 0 3)) else none
  | 40 => if bits w 8 3 = 0 ∧ bits w 21 5 = 0 then some (.redFadd (fld w 16 5) (fld w 11 5) (fld w 3 5) (fld w 0 3)) else none
  | 41 => if bits w 8 3 = 0 ∧ bits w 21 5 = 0 then some (.redFmin (fld w 16 5) (fld w 11 5) (fld w 3 5) (fld w 0 3)) else none
  | 42 => if bits w 8 3 = 0 ∧ bits w 21 5 = 0 then some (.redFmax (fld w 16 5) (fld w 11 5) (fld w 3 5) (fld w 0 3)) else none
  | 43 => if bits w 0 3 = 0 ∧ bits w 8 18 = 0 then some (.fenceAcq (fld w 3 5)) else none
  | 44 => if bits w 0 3 = 0 ∧ bits w 8 18 = 0 then some (.fenceRel (fld w 3 5)) else none
  | 45 => if bits w 0 3 = 0 ∧ bits w 8 18 = 0 then some (.fenceAr (fld w 3 5)) else none
  | 46 => if bits w 0 26 = 0 then some .qmark else none
  | 47 => if bits w 8 8 = 0 then some (.tktTake (fld w 21 5) (fld w 16 5) (fld w 3 5) (fld w 0 3)) else none
  | 48 => if bits w 8 8 = 0 ∧ bits w 21 5 = 0 then some (.tktServe (fld w 16 5) (fld w 3 5) (fld w 0 3)) else none
  | 49 => if bits w 8 3 = 0 ∧ bits w 21 5 = 0 then some (.tktWait (fld w 16 5) (fld w 11 5) (fld w 3 5) (fld w 0 3)) else none
  | 50 => if bits w 8 3 = 0 ∧ bits w 13 8 = 0 ∧ bits w 24 2 = 0 then some (.barArrive (fld w 21 3) (fld w 11 2) (fld w 3 5) (fld w 0 3)) else none
  | 51 => if bits w 8 3 = 0 ∧ bits w 13 8 = 0 ∧ bits w 24 2 = 0 then some (.barWait (fld w 21 3) (fld w 11 2) (fld w 3 5) (fld w 0 3)) else none
  | 52 => if bits w 0 8 = 0 ∧ bits w 9 2 = 0 ∧ bits w 25 1 = 0 then some (.sbind (fld w 24 1) (fld w 21 3) (fld w 16 5) (fld w 11 5) (fld w 8 1)) else none
  | 53 => if bits w 0 11 = 0 ∧ bits w 16 5 = 0 ∧ bits w 25 1 = 0 then some (.sstop (fld w 24 1) (fld w 21 3) (fld w 11 5)) else none
  | 54 => if bits w 0 11 = 0 ∧ bits w 16 5 = 0 ∧ bits w 25 1 = 0 then some (.srewind (fld w 24 1) (fld w 21 3) (fld w 11 5)) else none
  | 55 => if bits w 0 8 = 0 ∧ bits w 9 2 = 0 ∧ bits w 24 2 = 0 then some (.cbinit (fld w 21 3) (fld w 16 5) (fld w 11 5) (fld w 8 1)) else none
  | 56 => if bits w 0 11 = 0 ∧ bits w 16 5 = 0 ∧ bits w 25 1 = 0 then some (.cbadv (fld w 24 1) (fld w 21 3) (fld w 11 5)) else none
  | 57 => if bits w 0 26 = 0 then some .l1inv else none
  | 58 => if bits w 0 8 = 0 ∧ bits w 21 5 = 0 then some (.pref (fld w 16 5) (fld w 11 5) (fld w 9 2) (fld w 8 1)) else none
  | _ => none

/-- Decode the G-slot syllable `w` (R16, R74). -/
def decodeG (w : Nat) : Option Instr :=
  match bits w 30 2 with
  | 1 => if bits w 0 12 = 0 then some (.bx (fld w 20 10) (fld w 12 8)) else none
  | 2 => if bits w 0 4 = 0 then some (.bxm (fld w 20 10) (fld w 12 8) (fld w 4 8)) else none
  | _ => none

/-- Decode the E-slot syllable `w` (R73, R78, Tables 3.5 and 7.3). -/
def decodeE (w : Nat) : Option Instr :=
  match bits w 26 6 with
  | 1 => if bits w 1 7 = 0 then some (.copy (fld w 21 5) (fld w 16 5) (fld w 13 3) (fld w 8 5) (fld w 0 1)) else none
  | 2 => if bits w 1 7 = 0 then some (.copyx (fld w 21 5) (fld w 16 5) (fld w 13 3) (fld w 8 5) (fld w 0 1)) else none
  | 3 => if bits w 0 8 = 0 ∧ bits w 16 5 = 0 then some (.gather (fld w 21 5) (fld w 13 3) (fld w 8 5)) else none
  | 4 => if bits w 0 8 = 0 ∧ bits w 16 5 = 0 then some (.scatter (fld w 21 5) (fld w 13 3) (fld w 8 5)) else none
  | 5 => if bits w 0 13 = 0 ∧ bits w 16 5 = 0 then some (.tload (fld w 21 5) (fld w 13 3)) else none
  | 6 => if bits w 0 13 = 0 ∧ bits w 16 5 = 0 then some (.tseal (fld w 21 5) (fld w 13 3)) else none
  | 7 => if bits w 0 13 = 0 then some (.smload (fld w 21 5) (fld w 16 5) (fld w 13 3)) else none
  | 8 => if bits w 0 13 = 0 ∧ bits w 16 5 = 0 then some (.imload (fld w 21 5) (fld w 13 3)) else none
  | 9 => if bits w 0 8 = 0 ∧ bits w 16 5 = 0 then some (.coll (fld w 21 5) (fld w 13 3) (fld w 8 5)) else none
  | 10 => if bits w 0 13 = 0 then some (.tready (fld w 21 5) (fld w 16 5) (fld w 13 3)) else none
  | 11 => if bits w 0 8 = 0 ∧ bits w 16 5 = 0 then some (.mldr (fld w 21 5) (fld w 13 3) (fld w 8 5)) else none
  | 12 => if bits w 0 8 = 0 ∧ bits w 16 5 = 0 then some (.mred (fld w 21 5) (fld w 13 3) (fld w 8 5)) else none
  | 13 => if bits w 0 8 = 0 ∧ bits w 16 5 = 0 then some (.route (fld w 21 5) (fld w 13 3) (fld w 8 5)) else none
  | 14 => if bits w 0 8 = 0 ∧ bits w 16 5 = 0 then some (.ltxOpen (fld w 21 5) (fld w 13 3) (fld w 8 5)) else none
  | 15 => if bits w 0 8 = 0 then some (.ltxCommit (fld w 21 5) (fld w 16 5) (fld w 13 3) (fld w 8 5)) else none
  | 16 => if bits w 0 8 = 0 then some (.ltxAbort (fld w 21 5) (fld w 16 5) (fld w 13 3) (fld w 8 5)) else none
  | 17 => if bits w 0 8 = 0 ∧ bits w 16 5 = 0 then some (.aeMap (fld w 21 5) (fld w 13 3) (fld w 8 5)) else if bits w 0 8 = 1 ∧ bits w 16 5 = 0 then some (.aeMapMatrices (fld w 21 5) (fld w 13 3) (fld w 8 5)) else if bits w 0 8 = 2 ∧ bits w 16 5 = 0 then some (.aeMapUnmap (fld w 21 5) (fld w 13 3) (fld w 8 5)) else none
  | 18 => if bits w 0 8 = 0 ∧ bits w 16 5 = 0 then some (.aeGate (fld w 21 5) (fld w 13 3) (fld w 8 5)) else none
  | 19 => if bits w 0 8 = 0 ∧ bits w 16 5 = 0 then some (.aeSwap (fld w 21 5) (fld w 13 3) (fld w 8 5)) else none
  | 20 => if bits w 0 8 = 0 ∧ bits w 16 5 = 0 then some (.aeNorm (fld w 21 5) (fld w 13 3) (fld w 8 5)) else none
  | 21 => if bits w 0 8 = 0 ∧ bits w 16 5 = 0 then some (.aeProj (fld w 21 5) (fld w 13 3) (fld w 8 5)) else none
  | 22 => if bits w 0 13 = 0 ∧ bits w 16 5 = 0 then some (.trig (fld w 21 5) (fld w 13 3)) else none
  | 23 => if bits w 0 13 = 0 then some (.cancel (fld w 21 5) (fld w 16 5) (fld w 13 3)) else none
  | _ => none

/-- Decode the X-slot syllable `w` (R73, R79, Table 7.7). -/
def decodeX (w : Nat) : Option Instr :=
  match bits w 27 5 with
  | 0 => if bits w 0 27 = 0 then some .xnop else none
  | 1 => if bits w 1 8 = 0 then some (.cload (fld w 24 3) (fld w 18 6) (fld w 12 6) (fld w 9 3) (fld w 0 1)) else none
  | 2 => if bits w 0 9 = 0 then some (.ctag (fld w 24 3) (fld w 18 6) (fld w 12 6) (fld w 9 3)) else none
  | 3 => if bits w 1 8 = 0 then some (.cstore (fld w 24 3) (fld w 18 6) (fld w 12 6) (fld w 9 3) (fld w 0 1)) else none
  | 4 => if bits w 12 12 = 0 then some (.cx (fld w 24 3) (fld w 9 3) (fld w 6 3) (fld w 3 3) (fld w 0 3)) else none
  | 5 => if bits w 0 9 = 0 ∧ bits w 12 12 = 0 then some (.cclr (fld w 24 3) (fld w 9 3)) else none
  | 6 => if bits w 0 18 = 0 then some (.rngseed (fld w 24 3) (fld w 18 6)) else none
  | 7 => if bits w 2 25 = 0 then some (.rngctl (fld w 1 1) (fld w 0 1)) else none
  | _ => none

/-- The fields of an entry (R80). -/
def entryFields (w : Nat) : Entry :=
  { cls := fld w 55 3, fmt := fld w 52 3, d := fld w 46 6, a := fld w 40 6, b := fld w 34 6, c := fld w 28 6,
    mask := fld w 25 3, bank := fld w 22 3, mod := fld w 0 22 }

/-- The number whose fields, below OP, are those of `e` (R80). -/
def Entry.word (e : Entry) (op : Nat) : Nat :=
  op * 2 ^ 58 + put e.cls 55 + put e.fmt 52 + put e.d 46 + put e.a 40 + put e.b 34 + put e.c 28 + put e.mask 25 +
  put e.bank 22 + put e.mod 0

/-- Decode a 64-bit group-table entry (R82, Table 3.8). -/
def decodeEntry (w : Nat) : Option Instr :=
  let e := entryFields w
  match bits w 58 6 with
  | 0 => if bits w 0 58 = 0 then some .entryNop else none
  | 1 => some (.vadd e)
  | 2 => some (.vsub e)
  | 3 => some (.vmul e)
  | 4 => some (.vmulh e)
  | 5 => some (.vmad e)
  | 6 => some (.vdp4 e)
  | 7 => some (.vand e)
  | 8 => some (.vor e)
  | 9 => some (.vxor e)
  | 10 => some (.vshl e)
  | 11 => some (.vshrl e)
  | 12 => some (.vshra e)
  | 13 => some (.vmin e)
  | 14 => some (.vmax e)
  | 15 => some (.vabs e)
  | 16 => some (.vneg e)
  | 17 => some (.vcmpCc e)
  | 18 => some (.vsel e)
  | 19 => some (.vpopc e)
  | 20 => some (.vclz e)
  | 21 => some (.vfadd e)
  | 22 => some (.vfsub e)
  | 23 => some (.vfmul e)
  | 24 => some (.vfma e)
  | 25 => some (.vfmin e)
  | 26 => some (.vfmax e)
  | 27 => some (.vfabs e)
  | 28 => some (.vfcmpCc e)
  | 29 => some (.vfrcp e)
  | 30 => some (.vfrsq e)
  | 31 => some (.vfexp2 e)
  | 32 => some (.vflog2 e)
  | 33 => some (.vcvt e)
  | 34 => some (.vquant e)
  | 35 => some (.vdequant e)
  | 36 => some (.vpack e)
  | 37 => some (.vunpack e)
  | 38 => some (.vlmul e)
  | 39 => some (.vlsum e)
  | 40 => some (.vperm e)
  | 41 => some (.vbcast e)
  | 42 => some (.vreduce e)
  | 43 => some (.vscan e)
  | 44 => some (.viota e)
  | 45 => some (.mand e)
  | 46 => some (.mor e)
  | 47 => some (.mnot e)
  | 48 => some (.mset e)
  | 49 => some (.spld e)
  | 50 => some (.spst e)
  | 51 => some (.spldx e)
  | 52 => some (.spstx e)
  | 53 => some (.spldFull e)
  | 54 => some (.spstEmpty e)
  | 55 => some (.spatomAdd e)
  | 56 => some (.vshn e)
  | 57 =>
    match bits w 20 2 with
    | 0 => some (.gadd e)
    | 1 => some (.gli e)
    | 2 => if bits w 16 1 = 0 then some (.gmov e) else some (.gmovVector e)
    | _ => none
  | 58 => if bits w 21 1 = 0 then some (.mma e) else some (.mmaSp e)
  | 59 => some (.mzero e)
  | 60 => some (.mdrain e)
  | 61 => some (.mfeed e)
  | 62 => some (.vblk e)
  | _ => none

/-- Decode the word `w` of a slot; a step of the machine has no word. -/
def decode (sl : Slot) (w : Nat) : Option Instr :=
  match sl with
  | .s => decodeS w
  | .a => decodeA w
  | .g => decodeG w
  | .e => decodeE w
  | .x => decodeX w
  | .entry => decodeEntry w
  | .step => none

/-- The slot class of an instruction. -/
def slotOf : Instr → Slot
  | .nop | .add _ _ _ | .sub _ _ _ | .mul _ _ _ | .mulh _ _ _ | .mulhn _ _ _ | .div _ _ _ | .divn _ _ _
  | .rem _ _ _ | .remn _ _ _ | .and _ _ _ | .or _ _ _ | .xor _ _ _ | .andn _ _ _ | .shl _ _ _ | .shrl _ _ _
  | .shra _ _ _ | .rotl _ _ _ | .min _ _ _ | .max _ _ _ | .minn _ _ _ | .maxn _ _ _ | .clz _ _ | .ctz _ _
  | .popc _ _ | .addx _ _ _ _ _ | .sel _ _ _ _ | .addi _ _ _ | .andi _ _ _ | .ori _ _ _ | .xori _ _ _
  | .shli _ _ _ | .shrli _ _ _ | .shrai _ _ _ | .li _ _ | .lih _ _ _ | .cmpCc _ _ _ _ | .cmpiCc _ _ _
  | .pand _ _ _ | .por _ _ _ | .pxor _ _ _ | .pnot _ _ | .gets _ _ | .puts _ _ | .br _ _ _ | .bri _ | .call _ _ _
  | .ret _ | .loop _ _ _ | .loopm _ _ _ _ | .lstride _ _ _ _ | .dispatch _ _ _ | .yield | .yieldPark | .exit
  | .trap _ | .waitt _ _ _ | .scopeSet _ _ | .scopeLoad _ | .sluice => .s
  | .ldb _ _ _ _ _ _ _ | .ldbn _ _ _ _ _ _ _ | .ldh _ _ _ _ _ _ _ | .ldhn _ _ _ _ _ _ _ | .ldw _ _ _ _ _ _ _
  | .ldwn _ _ _ _ _ _ _ | .ldd _ _ _ _ _ _ _ | .stb _ _ _ _ _ _ | .sth _ _ _ _ _ _ | .stw _ _ _ _ _ _
  | .std _ _ _ _ _ _ | .ldfull _ _ _ _ _ | .ldtake _ _ _ _ _ | .stfill _ _ _ _ _ | .stforce _ _ _ _ _
  | .fetag _ _ _ | .feset _ _ _ | .atomAdd _ _ _ _ _ _ | .atomAnd _ _ _ _ _ _ | .atomOr _ _ _ _ _ _
  | .atomXor _ _ _ _ _ _ | .atomMin _ _ _ _ _ _ | .atomMax _ _ _ _ _ _ | .atomMinn _ _ _ _ _ _
  | .atomMaxn _ _ _ _ _ _ | .atomSwap _ _ _ _ _ _ | .atomCas _ _ _ _ _ _ | .atomFadd _ _ _ _ _
  | .atomFmin _ _ _ _ _ | .atomFmax _ _ _ _ _ | .redAdd _ _ _ _ _ | .redAnd _ _ _ _ _ | .redOr _ _ _ _ _
  | .redXor _ _ _ _ _ | .redMin _ _ _ _ _ | .redMax _ _ _ _ _ | .redMinn _ _ _ _ _ | .redMaxn _ _ _ _ _
  | .redFadd _ _ _ _ | .redFmin _ _ _ _ | .redFmax _ _ _ _ | .fenceAcq _ | .fenceRel _ | .fenceAr _ | .qmark
  | .tktTake _ _ _ _ | .tktServe _ _ _ | .tktWait _ _ _ _ | .barArrive _ _ _ _ | .barWait _ _ _ _
  | .sbind _ _ _ _ _ | .sstop _ _ _ | .srewind _ _ _ | .cbinit _ _ _ _ | .cbadv _ _ _ | .l1inv | .pref _ _ _ _ => .a
  | .bx _ _ | .bxm _ _ _ => .g
  | .copy _ _ _ _ _ | .copyx _ _ _ _ _ | .gather _ _ _ | .scatter _ _ _ | .tload _ _ | .tseal _ _ | .smload _ _ _
  | .imload _ _ | .coll _ _ _ | .tready _ _ _ | .mldr _ _ _ | .mred _ _ _ | .route _ _ _ | .ltxOpen _ _ _
  | .ltxCommit _ _ _ _ | .ltxAbort _ _ _ _ | .aeMap _ _ _ | .aeMapMatrices _ _ _ | .aeMapUnmap _ _ _
  | .aeGate _ _ _ | .aeSwap _ _ _ | .aeNorm _ _ _ | .aeProj _ _ _ | .trig _ _ | .cancel _ _ _ => .e
  | .xnop | .cload _ _ _ _ _ | .ctag _ _ _ _ | .cstore _ _ _ _ _ | .cx _ _ _ _ _ | .cclr _ _ | .rngseed _ _
  | .rngctl _ _ => .x
  | .entryNop | .vadd _ | .vsub _ | .vmul _ | .vmulh _ | .vmad _ | .vdp4 _ | .vand _ | .vor _ | .vxor _ | .vshl _
  | .vshrl _ | .vshra _ | .vmin _ | .vmax _ | .vabs _ | .vneg _ | .vcmpCc _ | .vsel _ | .vpopc _ | .vclz _
  | .vfadd _ | .vfsub _ | .vfmul _ | .vfma _ | .vfmin _ | .vfmax _ | .vfabs _ | .vfcmpCc _ | .vfrcp _ | .vfrsq _
  | .vfexp2 _ | .vflog2 _ | .vcvt _ | .vquant _ | .vdequant _ | .vpack _ | .vunpack _ | .vlmul _ | .vlsum _
  | .vperm _ | .vbcast _ | .vreduce _ | .vscan _ | .viota _ | .mand _ | .mor _ | .mnot _ | .mset _ | .spld _
  | .spst _ | .spldx _ | .spstx _ | .spldFull _ | .spstEmpty _ | .spatomAdd _ | .vshn _ | .gadd _ | .gli _
  | .gmov _ | .gmovVector _ | .mma _ | .mmaSp _ | .mzero _ | .mdrain _ | .mfeed _ | .vblk _ => .entry
  | .bundleIssue | .selectorRotation | .resultWrite | .beatCountExpiry | .mmaBeat | .tileBusyClear | .columnStage
  | .checkpoint | .withheldStoreDrain | .releaseHandover | .storeAcknowledgement | .trapTaken | .raceReport
  | .loadReturn | .pageWalk | .migReread | .streamFetch | .outputQueueDrain | .rbqFillSlot | .l1invComplete
  | .fullEmptyService | .ticketResend | .barrierPhaseComplete | .engineCommandStart | .engineCommandComplete
  | .triggerFire | .tileFire | .windowRoundMerge | .memberAbsentTimeout | .collectiveTimeout | .ltxTimeout
  | .aeStateCommandPerform | .pickup | .stealRound | .gangCorePreparation | .gangPreparationTimeout | .gangRelease
  | .sluiceDecision | .sluiceSwap | .preemption | .contextSave | .patrolScrub | .rowSpare | .imPoisonRepair
  | .laneFault | .droopResponse | .thermalThrottle | .thermalTrip | .packageReset | .retirementMapUpdate
  | .frameReceived | .countWordPublish | .txFrameSend | .pollingSlotVisit | .frameBoundary | .agingTick
  | .queueUnbind | .queueTriggerFire | .notify | .queueEnable | .queueDisable | .nopCommand | .launch | .write
  | .abort | .requeue | .deviceEnable | .deviceDisable | .devTimeRead | .timeSet | .fwLoad | .fwSwitch
  | .firmwareHandover | .ringEnable | .txEnable | .txprod | .registerWrite | .shootdown | .preemptCores
  | .preemptLaunch | .reopen | .coreOut | .spareIn | .dieOut | .bankSpare | .portOut | .portIn | .portSpareLane
  | .scrub | .attest | .i3cDynamicAddress | .i3cPrivateWrite | .i3cPrivateRead | .engineCommandProgress
  | .bar4WindowAccess | .packageUnreachable | .packageRejoins | .powerLoss | .imFetchAhead => .step

/-- The word of an instruction in its slot, from the same tables (R73 to R82); 0 for a step of the machine. -/
def encode : Instr → Nat
  | .nop => 0
  | .add d a b => 67108864 + put d 21 + put a 16 + put b 11
  | .sub d a b => 134217728 + put d 21 + put a 16 + put b 11
  | .mul d a b => 201326592 + put d 21 + put a 16 + put b 11
  | .mulh d a b => 268435456 + put d 21 + put a 16 + put b 11
  | .mulhn d a b => 335544320 + put d 21 + put a 16 + put b 11
  | .div d a b => 402653184 + put d 21 + put a 16 + put b 11
  | .divn d a b => 469762048 + put d 21 + put a 16 + put b 11
  | .rem d a b => 536870912 + put d 21 + put a 16 + put b 11
  | .remn d a b => 603979776 + put d 21 + put a 16 + put b 11
  | .and d a b => 671088640 + put d 21 + put a 16 + put b 11
  | .or d a b => 738197504 + put d 21 + put a 16 + put b 11
  | .xor d a b => 805306368 + put d 21 + put a 16 + put b 11
  | .andn d a b => 872415232 + put d 21 + put a 16 + put b 11
  | .shl d a b => 939524096 + put d 21 + put a 16 + put b 11
  | .shrl d a b => 1006632960 + put d 21 + put a 16 + put b 11
  | .shra d a b => 1073741824 + put d 21 + put a 16 + put b 11
  | .rotl d a b => 1140850688 + put d 21 + put a 16 + put b 11
  | .min d a b => 1207959552 + put d 21 + put a 16 + put b 11
  | .max d a b => 1275068416 + put d 21 + put a 16 + put b 11
  | .minn d a b => 1342177280 + put d 21 + put a 16 + put b 11
  | .maxn d a b => 1409286144 + put d 21 + put a 16 + put b 11
  | .clz d a => 1476395008 + put d 21 + put a 16
  | .ctz d a => 1543503872 + put d 21 + put a 16
  | .popc d a => 1610612736 + put d 21 + put a 16
  | .addx d a b k c => 1677721600 + put d 21 + put a 16 + put b 11 + put k 3 + put c 0
  | .sel d a b c => 1744830464 + put d 21 + put a 16 + put b 11 + put c 0
  | .addi d a i => 1811939328 + put d 21 + put a 16 + put i 0
  | .andi d a i => 1879048192 + put d 21 + put a 16 + put i 0
  | .ori d a i => 1946157056 + put d 21 + put a 16 + put i 0
  | .xori d a i => 2013265920 + put d 21 + put a 16 + put i 0
  | .shli d a i => 2080374784 + put d 21 + put a 16 + put i 0
  | .shrli d a i => 2147483648 + put d 21 + put a 16 + put i 0
  | .shrai d a i => 2214592512 + put d 21 + put a 16 + put i 0
  | .li d i => 2281701376 + put d 21 + put i 0
  | .lih d a i => 2348810240 + put d 21 + put a 16 + put i 0
  | .cmpCc p a b c => 2415919104 + put p 21 + put a 16 + put b 11 + put c 0
  | .cmpiCc p a c => 2483027968 + put p 21 + put a 16 + put c 0
  | .pand d a b => 2550136832 + put d 21 + put a 16 + put b 11
  | .por d a b => 2617245696 + put d 21 + put a 16 + put b 11
  | .pxor d a b => 2684354560 + put d 21 + put a 16 + put b 11
  | .pnot d a => 2751463424 + put d 21 + put a 16
  | .gets d n => 2818572288 + put d 21 + put n 0
  | .puts a n => 2885681152 + put a 16 + put n 0
  | .br p n o => 2952790016 + put p 23 + put n 22 + put o 0
  | .bri a => 3019898880 + put a 16
  | .call p n o => 3087007744 + put p 23 + put n 22 + put o 0
  | .ret a => 3154116608 + put a 16
  | .loop l a f => 3221225472 + put l 21 + put a 16 + put f 0
  | .loopm l a b f => 3288334336 + put l 21 + put a 16 + put b 11 + put f 0
  | .lstride d a k l => 3355443200 + put d 21 + put a 16 + put k 14 + put l 11
  | .dispatch d a b => 3422552064 + put d 21 + put a 16 + put b 11
  | .yield => 3489660928
  | .yieldPark => 3489660929
  | .exit => 3556769792
  | .trap c => 3623878656 + put c 0
  | .waitt p a n => 3690987520 + put p 21 + put a 16 + put n 11
  | .scopeSet n a => 3758096384 + put n 21 + put a 16
  | .scopeLoad n => 3825205248 + put n 21
  | .sluice => 3892314112
  | .ldb d b x r y s o => 67108864 + put d 21 + put b 16 + put x 11 + put r 9 + put y 8 + put s 3 + put o 0
  | .ldbn d b x r y s o => 134217728 + put d 21 + put b 16 + put x 11 + put r 9 + put y 8 + put s 3 + put o 0
  | .ldh d b x r y s o => 201326592 + put d 21 + put b 16 + put x 11 + put r 9 + put y 8 + put s 3 + put o 0
  | .ldhn d b x r y s o => 268435456 + put d 21 + put b 16 + put x 11 + put r 9 + put y 8 + put s 3 + put o 0
  | .ldw d b x r y s o => 335544320 + put d 21 + put b 16 + put x 11 + put r 9 + put y 8 + put s 3 + put o 0
  | .ldwn d b x r y s o => 402653184 + put d 21 + put b 16 + put x 11 + put r 9 + put y 8 + put s 3 + put o 0
  | .ldd d b x r y s o => 469762048 + put d 21 + put b 16 + put x 11 + put r 9 + put y 8 + put s 3 + put o 0
  | .stb d b x r s o => 536870912 + put d 21 + put b 16 + put x 11 + put r 9 + put s 3 + put o 0
  | .sth d b x r s o => 603979776 + put d 21 + put b 16 + put x 11 + put r 9 + put s 3 + put o 0
  | .stw d b x r s o => 671088640 + put d 21 + put b 16 + put x 11 + put r 9 + put s 3 + put o 0
  | .std d b x r s o => 738197504 + put d 21 + put b 16 + put x 11 + put r 9 + put s 3 + put o 0
  | .ldfull d b x s o => 805306368 + put d 21 + put b 16 + put x 11 + put s 3 + put o 0
  | .ldtake d b x s o => 872415232 + put d 21 + put b 16 + put x 11 + put s 3 + put o 0
  | .stfill d b x s o => 939524096 + put d 21 + put b 16 + put x 11 + put s 3 + put o 0
  | .stforce d b x s o => 1006632960 + put d 21 + put b 16 + put x 11 + put s 3 + put o 0
  | .fetag d b x => 1073741824 + put d 21 + put b 16 + put x 11
  | .feset d b x => 1140850688 + put d 21 + put b 16 + put x 11
  | .atomAdd d b x z s o => 1207959552 + put d 21 + put b 16 + put x 11 + put z 8 + put s 3 + put o 0
  | .atomAnd d b x z s o => 1275068416 + put d 21 + put b 16 + put x 11 + put z 8 + put s 3 + put o 0
  | .atomOr d b x z s o => 1342177280 + put d 21 + put b 16 + put x 11 + put z 8 + put s 3 + put o 0
  | .atomXor d b x z s o => 1409286144 + put d 21 + put b 16 + put x 11 + put z 8 + put s 3 + put o 0
  | .atomMin d b x z s o => 1476395008 + put d 21 + put b 16 + put x 11 + put z 8 + put s 3 + put o 0
  | .atomMax d b x z s o => 1543503872 + put d 21 + put b 16 + put x 11 + put z 8 + put s 3 + put o 0
  | .atomMinn d b x z s o => 1610612736 + put d 21 + put b 16 + put x 11 + put z 8 + put s 3 + put o 0
  | .atomMaxn d b x z s o => 1677721600 + put d 21 + put b 16 + put x 11 + put z 8 + put s 3 + put o 0
  | .atomSwap d b x z s o => 1744830464 + put d 21 + put b 16 + put x 11 + put z 8 + put s 3 + put o 0
  | .atomCas d b x z s o => 1811939328 + put d 21 + put b 16 + put x 11 + put z 8 + put s 3 + put o 0
  | .atomFadd d b x s o => 1879048192 + put d 21 + put b 16 + put x 11 + put s 3 + put o 0
  | .atomFmin d b x s o => 1946157056 + put d 21 + put b 16 + put x 11 + put s 3 + put o 0
  | .atomFmax d b x s o => 2013265920 + put d 21 + put b 16 + put x 11 + put s 3 + put o 0
  | .redAdd b x z s o => 2147483648 + put b 16 + put x 11 + put z 8 + put s 3 + put o 0
  | .redAnd b x z s o => 2214592512 + put b 16 + put x 11 + put z 8 + put s 3 + put o 0
  | .redOr b x z s o => 2281701376 + put b 16 + put x 11 + put z 8 + put s 3 + put o 0
  | .redXor b x z s o => 2348810240 + put b 16 + put x 11 + put z 8 + put s 3 + put o 0
  | .redMin b x z s o => 2415919104 + put b 16 + put x 11 + put z 8 + put s 3 + put o 0
  | .redMax b x z s o => 2483027968 + put b 16 + put x 11 + put z 8 + put s 3 + put o 0
  | .redMinn b x z s o => 2550136832 + put b 16 + put x 11 + put z 8 + put s 3 + put o 0
  | .redMaxn b x z s o => 2617245696 + put b 16 + put x 11 + put z 8 + put s 3 + put o 0
  | .redFadd b x s o => 2684354560 + put b 16 + put x 11 + put s 3 + put o 0
  | .redFmin b x s o => 2751463424 + put b 16 + put x 11 + put s 3 + put o 0
  | .redFmax b x s o => 2818572288 + put b 16 + put x 11 + put s 3 + put o 0
  | .fenceAcq s => 2885681152 + put s 3
  | .fenceRel s => 2952790016 + put s 3
  | .fenceAr s => 3019898880 + put s 3
  | .qmark => 3087007744
  | .tktTake d b s o => 3154116608 + put d 21 + put b 16 + put s 3 + put o 0
  | .tktServe b s o => 3221225472 + put b 16 + put s 3 + put o 0
  | .tktWait b x s o => 3288334336 + put b 16 + put x 11 + put s 3 + put o 0
  | .barArrive l i s o => 3355443200 + put l 21 + put i 11 + put s 3 + put o 0
  | .barWait l i s o => 3422552064 + put l 21 + put i 11 + put s 3 + put o 0
  | .sbind k i b x t => 3489660928 + put k 24 + put i 21 + put b 16 + put x 11 + put t 8
  | .sstop k i x => 3556769792 + put k 24 + put i 21 + put x 11
  | .srewind k i x => 3623878656 + put k 24 + put i 21 + put x 11
  | .cbinit k b x t => 3690987520 + put k 21 + put b 16 + put x 11 + put t 8
  | .cbadv s k x => 3758096384 + put s 24 + put k 21 + put x 11
  | .l1inv => 3825205248
  | .pref b x r y => 3892314112 + put b 16 + put x 11 + put r 9 + put y 8
  | .bx i a => 1073741824 + put i 20 + put a 12
  | .bxm i a m => 2147483648 + put i 20 + put a 12 + put m 4
  | .copy d o c s h => 67108864 + put d 21 + put o 16 + put c 13 + put s 8 + put h 0
  | .copyx d o c s h => 134217728 + put d 21 + put o 16 + put c 13 + put s 8 + put h 0
  | .gather d c s => 201326592 + put d 21 + put c 13 + put s 8
  | .scatter d c s => 268435456 + put d 21 + put c 13 + put s 8
  | .tload d c => 335544320 + put d 21 + put c 13
  | .tseal d c => 402653184 + put d 21 + put c 13
  | .smload d o c => 469762048 + put d 21 + put o 16 + put c 13
  | .imload d c => 536870912 + put d 21 + put c 13
  | .coll d c s => 603979776 + put d 21 + put c 13 + put s 8
  | .tready d o c => 671088640 + put d 21 + put o 16 + put c 13
  | .mldr d c s => 738197504 + put d 21 + put c 13 + put s 8
  | .mred d c s => 805306368 + put d 21 + put c 13 + put s 8
  | .route d c s => 872415232 + put d 21 + put c 13 + put s 8
  | .ltxOpen d c s => 939524096 + put d 21 + put c 13 + put s 8
  | .ltxCommit d o c s => 1006632960 + put d 21 + put o 16 + put c 13 + put s 8
  | .ltxAbort d o c s => 1073741824 + put d 21 + put o 16 + put c 13 + put s 8
  | .aeMap d c s => 1140850688 + put d 21 + put c 13 + put s 8
  | .aeMapMatrices d c s => 1140850689 + put d 21 + put c 13 + put s 8
  | .aeMapUnmap d c s => 1140850690 + put d 21 + put c 13 + put s 8
  | .aeGate d c s => 1207959552 + put d 21 + put c 13 + put s 8
  | .aeSwap d c s => 1275068416 + put d 21 + put c 13 + put s 8
  | .aeNorm d c s => 1342177280 + put d 21 + put c 13 + put s 8
  | .aeProj d c s => 1409286144 + put d 21 + put c 13 + put s 8
  | .trig d c => 1476395008 + put d 21 + put c 13
  | .cancel d o c => 1543503872 + put d 21 + put o 16 + put c 13
  | .xnop => 0
  | .cload g a b c r => 134217728 + put g 24 + put a 18 + put b 12 + put c 9 + put r 0
  | .ctag g a b c => 268435456 + put g 24 + put a 18 + put b 12 + put c 9
  | .cstore g a b c k => 402653184 + put g 24 + put a 18 + put b 12 + put c 9 + put k 0
  | .cx g c j d b => 536870912 + put g 24 + put c 9 + put j 6 + put d 3 + put b 0
  | .cclr g c => 671088640 + put g 24 + put c 9
  | .rngseed g a => 805306368 + put g 24 + put a 18
  | .rngctl f e => 939524096 + put f 1 + put e 0
  | .entryNop => 0
  | .vadd e => e.word 1
  | .vsub e => e.word 2
  | .vmul e => e.word 3
  | .vmulh e => e.word 4
  | .vmad e => e.word 5
  | .vdp4 e => e.word 6
  | .vand e => e.word 7
  | .vor e => e.word 8
  | .vxor e => e.word 9
  | .vshl e => e.word 10
  | .vshrl e => e.word 11
  | .vshra e => e.word 12
  | .vmin e => e.word 13
  | .vmax e => e.word 14
  | .vabs e => e.word 15
  | .vneg e => e.word 16
  | .vcmpCc e => e.word 17
  | .vsel e => e.word 18
  | .vpopc e => e.word 19
  | .vclz e => e.word 20
  | .vfadd e => e.word 21
  | .vfsub e => e.word 22
  | .vfmul e => e.word 23
  | .vfma e => e.word 24
  | .vfmin e => e.word 25
  | .vfmax e => e.word 26
  | .vfabs e => e.word 27
  | .vfcmpCc e => e.word 28
  | .vfrcp e => e.word 29
  | .vfrsq e => e.word 30
  | .vfexp2 e => e.word 31
  | .vflog2 e => e.word 32
  | .vcvt e => e.word 33
  | .vquant e => e.word 34
  | .vdequant e => e.word 35
  | .vpack e => e.word 36
  | .vunpack e => e.word 37
  | .vlmul e => e.word 38
  | .vlsum e => e.word 39
  | .vperm e => e.word 40
  | .vbcast e => e.word 41
  | .vreduce e => e.word 42
  | .vscan e => e.word 43
  | .viota e => e.word 44
  | .mand e => e.word 45
  | .mor e => e.word 46
  | .mnot e => e.word 47
  | .mset e => e.word 48
  | .spld e => e.word 49
  | .spst e => e.word 50
  | .spldx e => e.word 51
  | .spstx e => e.word 52
  | .spldFull e => e.word 53
  | .spstEmpty e => e.word 54
  | .spatomAdd e => e.word 55
  | .vshn e => e.word 56
  | .gadd e => e.word 57
  | .gli e => e.word 57
  | .gmov e => e.word 57
  | .gmovVector e => e.word 57
  | .mma e => e.word 58
  | .mmaSp e => e.word 58
  | .mzero e => e.word 59
  | .mdrain e => e.word 60
  | .mfeed e => e.word 61
  | .vblk e => e.word 62
  | .bundleIssue | .selectorRotation | .resultWrite | .beatCountExpiry | .mmaBeat | .tileBusyClear | .columnStage
  | .checkpoint | .withheldStoreDrain | .releaseHandover | .storeAcknowledgement | .trapTaken | .raceReport
  | .loadReturn | .pageWalk | .migReread | .streamFetch | .outputQueueDrain | .rbqFillSlot | .l1invComplete
  | .fullEmptyService | .ticketResend | .barrierPhaseComplete | .engineCommandStart | .engineCommandComplete
  | .triggerFire | .tileFire | .windowRoundMerge | .memberAbsentTimeout | .collectiveTimeout | .ltxTimeout
  | .aeStateCommandPerform | .pickup | .stealRound | .gangCorePreparation | .gangPreparationTimeout | .gangRelease
  | .sluiceDecision | .sluiceSwap | .preemption | .contextSave | .patrolScrub | .rowSpare | .imPoisonRepair
  | .laneFault | .droopResponse | .thermalThrottle | .thermalTrip | .packageReset | .retirementMapUpdate
  | .frameReceived | .countWordPublish | .txFrameSend | .pollingSlotVisit | .frameBoundary | .agingTick
  | .queueUnbind | .queueTriggerFire | .notify | .queueEnable | .queueDisable | .nopCommand | .launch | .write
  | .abort | .requeue | .deviceEnable | .deviceDisable | .devTimeRead | .timeSet | .fwLoad | .fwSwitch
  | .firmwareHandover | .ringEnable | .txEnable | .txprod | .registerWrite | .shootdown | .preemptCores
  | .preemptLaunch | .reopen | .coreOut | .spareIn | .dieOut | .bankSpare | .portOut | .portIn | .portSpareLane
  | .scrub | .attest | .i3cDynamicAddress | .i3cPrivateWrite | .i3cPrivateRead | .engineCommandProgress
  | .bar4WindowAccess | .packageUnreachable | .packageRejoins | .powerLoss | .imFetchAhead => 0

/-- The OP of a form, as error records carry it (Table 7.2). -/
def opcodeOf (i : Instr) : Nat :=
  match slotOf i with
  | .s | .a | .e => bits (encode i) 26 6
  | .x => bits (encode i) 27 5
  | .g => bits (encode i) 30 2
  | .entry => bits (encode i) 58 6
  | .step => 0

/-- Syllable `i` of a bundle (R70). -/
def syllable (b : Bundle) (i : Nat) : Nat := bits b.toNat (32 * i) 32

/-- A bundle from its 32 bytes in IM order (R70). -/
def bundleOfBytes (bs : List Byte) : Bundle :=
  BitVec.ofNat 256 (bs.foldr (fun b acc => b.toNat + 256 * acc) 0)

/-- A bundle from its eight syllables H, S0, S1, A, G, E, X, L (Table 0.5). -/
def bundleOf (h s0 s1 a g e x l : Nat) : Bundle :=
  BitVec.ofNat 256 (h + 2 ^ 32 * (s0 + 2 ^ 32 * (s1 + 2 ^ 32 * (a + 2 ^ 32 * (g + 2 ^ 32 * (e + 2 ^ 32 *
    (x + 2 ^ 32 * l)))))))

/-- The place a table word stands at in a bundle. -/
def slotIndex : Slot → Nat
  | .s => 1 | .a => 3 | .g => 4 | .e => 5 | .x => 6 | .entry => 4 | .step => 0

/-- What the decoder reads from a table word. A 32-bit word does not say which slot it stands in (the rows of the five
slot classes overlap), so the slots are tried in the order S, A, E, X, G; a 64-bit word is a group-table entry. -/
def decodeTableWord (nbits w : Nat) : Option Instr :=
  if nbits = 64 then decodeEntry (w % 2 ^ 64)
  else
    match decodeS (w % 2 ^ 32) with
    | some i => some i
    | none =>
      match decodeA (w % 2 ^ 32) with
      | some i => some i
      | none =>
        match decodeE (w % 2 ^ 32) with
        | some i => some i
        | none =>
          match decodeX (w % 2 ^ 32) with
          | some i => some i
          | none => decodeG (w % 2 ^ 32)

end Sys2Proof
end

