-- ==== Sys2Proof/Machine/Matrix.lean ====
section
/-!
DEFINITION. The matrix unit: `mma` and `mma.sp` with their beats (R179, R180, R61 to R63), `mzero`, `mfeed`, `mdrain` and
`vblk` over register blocks (R181 to R184), and the tile and beat-count events (R22, R23).
-/

namespace Sys2Proof.Machine

-- tiles

/-- Key of a tile's busy bit. -/
def busyKey (x g t : Nat) : Nat := 64 * x + 8 * g + t

/-- R23: the tile is busy in this cycle. -/
def tileBusy (s : State) (t : Nat) : Bool :=
  decide (s.myCore.cycle < s.myCore.busy.get (busyKey s.frame.ctx s.frame.grp t) 0)

/-- R13, R23, R359: the gates of an entry that names a tile; `reads` says that it reads it. -/
def tileGates (s : State) (t : Nat) (reads : Bool) : List Gate :=
  [gateIf (decide (s.me.win.tiles ≤ t)) (.trap cResource),
   gateIf (reads && regMarked s (48 + t)) (.trap cData),
   gateIf (tileBusy s t) .stall]

/-- A tile as it stood before the bundle. -/
def State.tileSrc (s : State) (t : Nat) : Tile := s.frame.old.tiles.get (8 * s.frame.grp + t) 0

/-- R34, R23: a tile is written now, and is busy until a cycle. -/
def State.putTile (s : State) (t : Nat) (v : Tile) (until_ : Nat) : State :=
  let g := s.frame.grp
  (s.modMe (fun c =>
    { c with shadowT := addOnce (8 * g + t) c.shadowT
             arch := { c.arch with tiles := c.arch.tiles.set (8 * g + t) v } })).modCore s.frame.core (fun k =>
    { k with busy := k.busy.set (busyKey s.frame.ctx g t) until_
             regUE := k.regUE.erase (1024 * s.frame.ctx + 64 * g + 48 + t) })

-- register blocks

/-- R182: register i of a block with `c` columns. -/
def blockReg (origin : BitVec 6) (c i : Nat) : Nat :=
  8 * (origin.toNat / 8 + i / c) + origin.toNat % 8 + i % c

/-- R182: registers of a block. -/
def blockRegs (origin : BitVec 6) (r c : Nat) : List Nat := (List.range (r * c)).map (blockReg origin c)

/-- R13, R182: a register of a block lies beyond the window. -/
def blockBeyond (s : State) (regs : List Nat) : Bool := regs.any (fun i => decide (s.me.win.vregs ≤ i))

/-- Registers of a block as they stood before the bundle. -/
def State.blockSrc (s : State) (i : Nat) : VReg := s.frame.old.v.get (64 * s.frame.grp + i) 0

/-- The gates of a source block. -/
def blockGates (s : State) (regs : List Nat) : List Gate :=
  [gateIf (blockBeyond s regs) (.trap cResource), gateIf (regs.any (regMarked s)) (.trap cData)]

-- mma

/-- R179: the class of formats a pair must share: 0 FP32, 1 BF16 and FP16, 2 FP8, 3 INT8 and N8, 4 L6, 5 none. -/
def mxuClass (fmt : Nat) : Nat :=
  if fmt = 0 then 0 else if fmt = 1 ∨ fmt = 2 then 1 else if fmt = 3 ∨ fmt = 4 then 2 else if fmt = 8 ∨ fmt = 9 then 3
  else if fmt = 5 then 4 else 5

/-- Table 6.4: retained products per output and beat. -/
def mxuK (cls : Nat) : Nat := if cls = 0 then 1 else if cls = 1 then 4 else if cls = 4 then 16 else 8
/-- Table 6.4: the reduction length of a beat in the A FIFO and in the B FIFO. -/
def mxuKB (cls : Nat) (sparse : Bool) : Nat := if sparse then 2 * mxuK cls else mxuK cls
/-- Table 6.4: cycles per beat. -/
def mxuStep (cls : Nat) : Nat := if cls = 0 then 2 else 1
/-- Table 6.4: beat bytes of the A FIFO and of the B FIFO. -/
def mxuBytesA (cls : Nat) : Nat := if cls = 0 then 64 else if cls = 4 then 192 else 128
def mxuBytesB (cls : Nat) (sparse : Bool) : Nat := if sparse then 2 * mxuBytesA cls else mxuBytesA cls

/-- R179: scale bytes per slot of `p` beats of length `k`. -/
def mxuScales (p k : Nat) : Nat := 16 * ((p * k + 31) / 32)

/-- R179: the pair and the geometry are accepted. -/
def mxuOk (a b : HandleDesc) (sparse : Bool) : Bool :=
  let cls := mxuClass a.fmt
  let ba := mxuBytesA cls
  let bb := mxuBytesB cls sparse
  let p := a.slotBytes / ba
  decide (cls < 5) && mxuClass b.fmt == cls && (!sparse || cls == 1 || cls == 2) &&
  a.slotBytes % ba == 0 && b.slotBytes % bb == 0 && p == b.slotBytes / bb &&
  (if cls = 4 then a.scaled && b.scaled else cls == 2 || (!a.scaled && !b.scaled)) &&
  (!a.scaled || a.sbytes == mxuScales p (mxuK cls)) && (!b.scaled || b.sbytes == mxuScales p (mxuKB cls sparse))

/-- R180: beats of an `mma`. -/
def mmaBeats (e : Entry) : Nat := e.modBits 0 8 + 1

/-- Key of handle k of the entry's group. -/
def handleKey (s : State) (k : Nat) : Nat := 8 * s.frame.grp + k

/-- R148, R359: some word of `m` slots of a handle, in its FIFO or its scales, is marked uncorrectable. -/
def slotsMarked (s : State) (side : Nat) (h : Handle) (m : Nat) : Bool :=
  let k := s.myCore
  let slot (j : Nat) : Nat := (h.consumed + j) % h.desc.slots
  (!k.fifoUE.isEmpty && (List.range m).any (fun j =>
    let lo := 65536 * (2 * s.frame.grp + side) + slot j * h.desc.slotBytes / 4
    k.fifoUE.any (fun w => decide (lo ≤ w) && decide (w < lo + h.desc.slotBytes / 4)))) ||
  (!k.spadUE.isEmpty && h.desc.scaled && (List.range m).any (fun j => (List.range h.desc.sbytes).any (fun i =>
    k.spadUE.contains (spadPhys s.me.win.spad s.me.base (h.desc.sbase + slot j * h.desc.sbytes + i) / 4))))

/-- R179, R180: what an `mma` finds at issue. -/
def mmaGates (e : Entry) (sparse : Bool) (s : State) : List Gate :=
  let n := mmaBeats e
  let busy := decide (s.myCore.cycle < s.myCore.mxuBusy.get s.frame.grp 0)
  [gateIf (!s.me.win.mxu) (.trap cResource), gateIf busy (.trap cSchedule)] ++ tileGates s e.tile true ++
  (match s.frame.old.handles.find (handleKey s 6), s.frame.old.handles.find (handleKey s 7) with
   | some a, some b =>
     let p := a.desc.slotBytes / mxuBytesA (mxuClass a.desc.fmt)
     [gateIf (!mxuOk a.desc b.desc sparse || n % p != 0 || decide (a.desc.slots < n / p) || decide (b.desc.slots < n / p))
        (.trap cStream),
      gateIf (slotsMarked s 0 a (n / p) || slotsMarked s 1 b (n / p)) (.trap cData),
      gateIf (decide (s.frame.was.filled (handleKey s 6) < n / p) || decide (s.frame.was.filled (handleKey s 7) < n / p)) (.block .slots)]
   | _, _ => [.trap cStream])

/-- R148: bytes of `m` slots of a FIFO from its consumer pointer on. -/
def fifoData (k : Core) (g side : Nat) (h : Handle) (m : Nat) : List Byte :=
  (List.range m).flatMap (fun j =>
    Mem.bytes (k.fifos.get (2 * g + side) []) ((h.consumed + j) % h.desc.slots * h.desc.slotBytes) h.desc.slotBytes)

/-- R148: scale bytes of `m` slots, from the context's allocation. -/
def fifoScales (k : Core) (c : Ctx) (h : Handle) (m : Nat) : List Byte :=
  if !h.desc.scaled then []
  else (List.range m).flatMap (fun j => (List.range h.desc.sbytes).flatMap (fun i =>
    Mem.bytes k.spad (spadPhys c.win.spad c.base (h.desc.sbase + (h.consumed + j) % h.desc.slots * h.desc.sbytes + i)) 1))

/-- R27, R180: consume slots of a handle. -/
def consumeSlots (key m : Nat) (a : Arch) : Arch :=
  let h := a.handles.get key {}
  { a with handles := a.handles.set key { h with consumed := h.consumed + m } }

/-- R180: an MMA starts: its slots are consumed, its unit and its tile are busy. -/
def mmaStart (e : Entry) (sparse : Bool) (s : State) : State :=
  let f := s.frame
  let g := f.grp
  let a := f.old.handles.get (handleKey s 6) {}
  let b := f.old.handles.get (handleKey s 7) {}
  let cls := mxuClass a.desc.fmt
  let p := a.desc.slotBytes / mxuBytesA cls
  let n := mmaBeats e
  let k := s.myCore
  let op : MmaOp :=
    { ctx := f.ctx, tile := e.tile, sparse := sparse, meta_ := e.modBits 10 7, beats := n, next := 0, due := k.cycle
      step := mxuStep cls, fmtA := a.desc.fmt, fmtB := b.desc.fmt, scaled := a.desc.scaled || b.desc.scaled
      dataA := fifoData k g 0 a (n / p), dataB := fifoData k g 1 b (n / p)
      scaleA := fifoScales k s.me a (n / p), scaleB := fifoScales k s.me b (n / p), perSlot := p }
  (s.modMe (fun c =>
    { c with shadowT := addOnce (8 * g + e.tile) c.shadowT
             arch := consumeSlots (handleKey s 7) (n / p) (consumeSlots (handleKey s 6) (n / p) c.arch) })).modCore f.core (fun k =>
    { k with mma := k.mma.set g (k.mma.get g [] ++ [op])
             mxuBusy := k.mxuBusy.set g (k.cycle + n * mxuStep cls)
             busy := k.busy.set (busyKey f.ctx g e.tile) (k.cycle + n * mxuStep cls + 8) })

def execMma (e : Entry) (s : State) : Out := entForm e false (mmaGates e false s) (mmaStart e false) s
def execMmaSp (e : Entry) (s : State) : Out := entForm e false (mmaGates e true s) (mmaStart e true) s

-- beats

/-- Element `i` of a beat of packed codes. -/
def beatElem (bits : Nat) (bs : List Byte) (i : Nat) : Nat := leNat ((bs.drop (bits * i / 8)).take 5) / 2 ^ (bits * i % 8) % 2 ^ bits

/-- The A and B bytes of beat `b` of an operation. -/
def MmaOp.beatA (m : MmaOp) (b : Nat) : List Byte := let n := mxuBytesA (mxuClass m.fmtA); (m.dataA.drop (b * n)).take n
def MmaOp.beatB (m : MmaOp) (b : Nat) : List Byte :=
  let n := mxuBytesB (mxuClass m.fmtA) m.sparse
  (m.dataB.drop (b * n)).take n

/-- R179: the E8 code of position `p` of row or column `r` in beat `b`, for slots of beats of length `k`; 127 when the FIFO
is not scaled. -/
def scaleAt (scales : List Byte) (perSlot k b r p : Nat) : Nat :=
  if scales.isEmpty then 127
  else
    let blocks := (perSlot * k + 31) / 32
    (scales.getD (b / perSlot * (16 * blocks) + r * blocks + (b % perSlot * k + p) / 32) 0).toNat

/-- R180: the pairs of positions (in A's row, in B's column) that row `r` of a beat multiplies. -/
def MmaOp.pairs (m : MmaOp) (rec_ : BitVec 256) (r : Nat) : List (Nat × Nat) :=
  let k := mxuK (mxuClass m.fmtA)
  if !m.sparse then (List.range k).map (fun p => (p, p))
  else (List.range k).map (fun p =>
    (p, 4 * (p / 2) + (rec_.extractLsb' (16 * r + 4 * (p / 2) + 2 * (p % 2)) 2).toNat))

/-- R61, R48: a float product with its scales, or NaN under a NaN scale. -/
def MmaOp.term (m : MmaOp) (b r c : Nat) (da db : List Byte) (p : Nat × Nat) : Val :=
  let cls := mxuClass m.fmtA
  let k := mxuK cls
  let ea := scaleAt m.scaleA m.perSlot k b r p.1
  let eb := scaleAt m.scaleB m.perSlot (mxuKB cls m.sparse) b c p.2
  let x := (floatFormat m.fmtA).value (beatElem (formatBits m.fmtA) da (r * k + p.1))
  let y := (floatFormat m.fmtB).value (beatElem (formatBits m.fmtB) db (p.2 * 16 + c))
  if ea = 0xFF ∨ eb = 0xFF then .nan else (x.mul y).scale ((ea : Int) + eb - 254)

/-- R61, R42: an integer product. -/
def MmaOp.intTerm (m : MmaOp) (r c : Nat) (da db : List Byte) (p : Nat × Nat) : Int :=
  intValue m.fmtA (beatElem 8 da (r * 8 + p.1)) * intValue m.fmtB (beatElem 8 db (p.2 * 16 + c))

/-- R63: the accumulator after an L6 beat. A sum S of 0 counts as +0 (DESIGN CHOICE, log entry 130). -/
def MmaOp.l6Sum (m : MmaOp) (b r c : Nat) (da db : List Byte) (acc : Nat) : Nat :=
  let t : Int := (List.range 16).foldl (fun t p => t + l6Term (beatElem 6 da (r * 16 + p)) (beatElem 6 db (p * 16 + c))) 0
  let ea := scaleAt m.scaleA m.perSlot 16 b r 0
  let eb := scaleAt m.scaleB m.perSlot 16 b c 0
  if ea = 0xFF ∨ eb = 0xFF then fp32.nan
  else sumRound 0 [val32 acc, Val.ofInt t ((ea : Int) + eb - 277)]

/-- R61, R63, R180: word (r, c) of the tile after beat `b`. -/
def MmaOp.word (m : MmaOp) (rec_ : BitVec 256) (b : Nat) (da db : List Byte) (t : Tile) (r c : Nat) : Lane :=
  let acc := (tileWord t r c).toNat
  let cls := mxuClass m.fmtA
  if cls = 4 then lane (m.l6Sum b r c da db acc)
  else if cls = 3 then
    BitVec.ofInt 32 ((m.pairs rec_ r).foldl (fun t p => t + m.intTerm r c da db p) (acc : Int))
  else lane (sumRound 0 (val32 acc :: (m.pairs rec_ r).map (m.term b r c da db)))

/-- R180: beat `b` of an operation on a tile. -/
def MmaOp.beat (m : MmaOp) (rec_ : BitVec 256) (b : Nat) (t : Tile) : Tile :=
  let da := m.beatA b
  let db := m.beatB b
  tileOf (m.word rec_ b da db t)

/-- The next beat of an operation of group `g` is performed. -/
def beatOne (g : Nat) (k : Core) (m : MmaOp) : Core × MmaOp :=
  let rec_ := k.side.get (128 * g + (m.meta_ + m.next) % 128) 0
  let c := k.ctx m.ctx
  let t := c.arch.tiles.get (8 * g + m.tile) 0
  let c' := { c with arch := { c.arch with tiles := c.arch.tiles.set (8 * g + m.tile) (m.beat rec_ m.next t) } }
  (k.setCtx m.ctx c', { m with next := m.next + 1, due := m.due + m.step })

/-- Beats of the operations of a group that are due by a cycle: at most one of each operation. -/
def beatGroup (g cycle : Nat) (k : Core) : Core :=
  let r := (k.mma.get g []).foldl
    (fun (a : Core × List MmaOp) m =>
      if m.next < m.beats && m.due ≤ cycle then let q := beatOne g a.1 m; (q.1, a.2 ++ [q.2]) else (a.1, a.2 ++ [m]))
    (k, [])
  { r.1 with mma := r.1.mma.set g r.2 }

/-- R22: operations of a group whose beat count has run out by the cycle after `cycle` are forgotten. -/
def beatsDone (g cycle : Nat) (k : Core) : Core :=
  { k with mma := k.mma.set g ((k.mma.get g []).filter (fun m => m.next < m.beats || cycle + 1 < m.due)) }

/-- MMA_BEAT (R180): the next beat of group `ev.group`. -/
def execMmaBeat (s : State) : Out := .next (s.modCore s.ev.core (fun k => beatGroup s.ev.group k.cycle k))

/-- BEAT_COUNT_EXPIRY (R22): counts of matrix units and of the column select unit that have run out. -/
def execBeatCountExpiry (s : State) : Out :=
  .next (s.modCore s.ev.core (fun k =>
    let k1 := (List.range 8).foldl (fun k g => if (k.mma.get g []).isEmpty then k else beatsDone g k.cycle k) k
    { k1 with mxuBusy := k1.mxuBusy.filter (fun b => k1.cycle < b.2)
              colBusy := if k1.colBusy ≤ k1.cycle then 0 else k1.colBusy }))

/-- TILE_BUSY_CLEAR (R23). -/
def execTileBusyClear (s : State) : Out :=
  .next (s.modCore s.ev.core (fun k => { k with busy := k.busy.filter (fun b => k.cycle < b.2) }))

-- whole-tile entries

/-- R181: the gates of an entry that writes a tile. -/
def execMzero (e : Entry) (s : State) : Out :=
  entForm e false (tileGates s e.tile false) (fun s => s.putTile e.tile 0 (s.myCore.cycle + 4)) s

/-- R181, R182: the tile whose words a block of 8 registers holds. -/
def tileOfBlock (s : State) (origin : BitVec 6) (c : Nat) : Tile :=
  tileOf (fun r w => let n := 16 * r + w; laneOf (s.blockSrc (blockReg origin c (n / 32))) (n % 32))

def execMfeed (e : Entry) (s : State) : Out :=
  entForm e false (blockGates s (blockRegs e.a e.rows e.cols) ++ tileGates s e.tile false)
    (fun s => s.putTile e.tile (tileOfBlock s e.a e.cols) (s.myCore.cycle + 4)) s

/-- R183: the exact value that a tile's word stands for after scaling, with the last place of its source. -/
def drainValue (int_ : Bool) (scale : Option Nat) (w : Lane) : Val × Int :=
  let x := if int_ then Val.ofInt w.toInt 0 else val32 w.toNat
  match scale with
  | none => (x, if int_ then 0 else sourceLsb fp32 x)
  | some b => let y := x.mul (val32 b); (y, sourceLsb fp32 y)

/-- R183: the element of a result format, clamped if asked. -/
def drainElem (fmt rm rnd : Nat) (clamp : Bool) (v : Val × Int) : Nat :=
  if fmt = 8 then
    match v.1 with
    | .nan => 0
    | .inf neg => saturate 8 (if neg then -128 else 127)
    | .fin neg m e => saturate 8 (roundToInt rm v.2 rnd neg m e)
  else
    let f := floatFormat fmt
    let y := roundVal f rm v.2 rnd v.1
    match f.value y with
    | .inf neg => if clamp then f.signBit neg + f.maxCode else y
    | _ => y

/-- R183: element n of the tile as converted. -/
def drainAt (e : Entry) (s : State) (t : Tile) (b : VReg) (l j n : Nat) : Nat :=
  let int_ := e.modBits 17 1 == 1
  let w := tileWord t (n / 16) (n % 16)
  let scale := if e.b == 63 then none else some (laneOf b (n % 16)).toNat
  if e.fmt == 7 && int_ && scale.isNone then w.toNat
  else drainElem (selFormat e.fmt) e.rm (s.randomWord l (32 * j / Entry.drainElems e.fmt)) (e.modBits 16 1 == 1)
    (drainValue int_ scale w)

/-- R182, R183: lane `l` of register `i` of the result block. -/
def drainLane (e : Entry) (s : State) (t : Tile) (b : VReg) (i l : Nat) : Lane :=
  let n := Entry.drainElems e.fmt
  lane (packLane (32 / n) ((List.range n).map (fun j => drainAt e s t b l j (32 * n * i + n * l + j))))

/-- Results for every register of a block. -/
def emitBlock (e : Entry) (f : Nat → Nat → Lane) (s : State) : State :=
  (List.range (e.rows * e.cols)).foldl
    (fun s i => s.emit (BitVec.ofNat 6 (blockReg e.d e.cols i)) (vregOf (f i)) (s.lanes e)) s

def execMdrain (e : Entry) (s : State) : Out :=
  entForm e (roundsSR e)
    (gateIf (blockBeyond s (blockRegs e.d e.rows e.cols)) (.trap cResource) :: tileGates s e.tile true)
    (fun s =>
      let t := s.tileSrc e.tile
      let b := s.entSrc e.b
      let s1 := emitBlock e (drainLane e s t b) s
      if e.modBits 21 1 = 1 then s1.putTile e.tile 0 (s.myCore.cycle + 4) else s1) s

/-- R184: one lane of a block operation. -/
def blkLane (op rm : Nat) (a b : Lane) (t : Lane) : Lane :=
  if op = 0 then lane (addF rm a.toNat b.toNat) else if op = 1 then lane (mulF rm a.toNat b.toNat)
  else if op = 2 then lane (minmaxF true a.toNat b.toNat) else if op = 3 then lane (minmaxF false a.toNat b.toNat)
  else if op = 4 then a else lane (addF rm t.toNat a.toNat)

def execVblk (e : Entry) (s : State) : Out :=
  entForm e false
    (blockGates s (blockRegs e.a e.rows e.cols) ++
     [gateIf (blockBeyond s (blockRegs e.d e.rows e.cols)) (.trap cResource)] ++
     (if e.blkOp = 5 then tileGates s e.tile true else []))
    (fun s =>
      let b := s.entSrc e.b
      let t := s.tileSrc e.tile
      emitBlock e (fun i l =>
        let n := 32 * i + l
        blkLane e.blkOp e.rm (laneOf (s.blockSrc (blockReg e.a e.cols i)) l) (laneOf b l)
          (tileWord t (n / 16 % 16) (n % 16))) s) s

end Sys2Proof.Machine
end

