-- ==== Sys2Proof/Machine/Sets.lean ====
section
/-!
DEFINITION. What a group-table entry names: its fields, its operation's minimum class (Table 1.2), the registers of its own
group that it reads and writes (R21, R154, R182), and the indices it makes committing (R17).
-/

namespace Sys2Proof.Machine

/-- The fields of an entry; none for the all-zero entry and for any other instruction. -/
def entryOf : Instr → Option Entry
  | .vadd e | .vsub e | .vmul e | .vmulh e | .vmad e | .vdp4 e | .vand e | .vor e | .vxor e | .vshl e | .vshrl e
  | .vshra e | .vmin e | .vmax e | .vabs e | .vneg e | .vcmpCc e | .vsel e | .vpopc e | .vclz e | .vfadd e
  | .vfsub e | .vfmul e | .vfma e | .vfmin e | .vfmax e | .vfabs e | .vfcmpCc e | .vfrcp e | .vfrsq e | .vfexp2 e
  | .vflog2 e | .vcvt e | .vquant e | .vdequant e | .vpack e | .vunpack e | .vlmul e | .vlsum e | .vperm e
  | .vbcast e | .vreduce e | .vscan e | .viota e | .mand e | .mor e | .mnot e | .mset e | .spld e | .spst e
  | .spldx e | .spstx e | .spldFull e | .spstEmpty e | .spatomAdd e | .vshn e | .gadd e | .gli e | .gmov e
  | .gmovVector e | .mma e | .mmaSp e | .mzero e | .mdrain e | .mfeed e | .vblk e => some e
  | _ => none

/-- Table 1.2: the minimum class of an operation. -/
def minClass : Instr → Nat
  | .entryNop => 0
  | .vmul _ | .vmulh _ | .vmad _ | .vdp4 _ | .vcmpCc _ | .vfcmpCc _ => 2
  | .vfadd _ | .vfsub _ | .vfmul _ | .vfma _ | .vfmin _ | .vfmax _ | .vfabs _ | .vcvt _ | .vdequant _ | .vlmul _ => 3
  | .spld _ | .vperm _ | .vbcast _ | .vreduce _ | .vscan _ | .vlsum _ | .vquant _ | .vpack _ | .vunpack _ => 4
  | .spldx _ | .spldFull _ | .spatomAdd _ | .vshn _ => 5
  | .vfrcp _ | .vfrsq _ | .vfexp2 _ | .vflog2 _ => 6
  | .mdrain _ => 7
  | .vblk e => if e.blkOp = 5 then 7 else 3
  | _ => 1

/-- R173, R174: an operation that names a bank. -/
def namesBank : Instr → Bool
  | .spld _ | .spst _ | .spldx _ | .spstx _ | .spldFull _ | .spstEmpty _ | .spatomAdd _ => true
  | _ => false

/-- R17: an entry that makes its index committing. -/
def commitsIndex : Instr → Bool
  | .spldFull _ | .spstEmpty _ | .spatomAdd _ => true
  | _ => false

/-- What an entry names of its group, as R21 counts it: vector registers, masks, group address registers, output
queues. -/
structure Names where
  vregs : List Nat := []
  masks : List Nat := []
  gregs : List Nat := []
  outs  : List Nat := []
  deriving DecidableEq, Repr

/-- A vector register among operand codes. -/
def vregCode (x : BitVec 6) : List Nat := if x.toNat < 48 then [x.toNat] else []
/-- An output queue as a destination code. -/
def outCode (x : BitVec 6) : List Nat := if 48 ≤ x.toNat ∧ x.toNat < 52 then [x.toNat - 48] else []

/-- R21, R154: what an entry reads. m0 is never written (R14). -/
def readsOf (i : Instr) : Names :=
  match i with
  | .mand e | .mor e => { masks := [e.a.toNat, e.b.toNat] }
  | .mnot e => { masks := [e.a.toNat] }
  | .mset e => { vregs := vregCode e.a }
  | .gadd e => { gregs := [e.modBits 14 3] }
  | .gli _ => {}
  | .gmov e => { vregs := vregCode e.a }
  | .gmovVector e => { gregs := [e.modBits 17 3], masks := [e.mask.toNat] }
  | .mfeed e => { vregs := blockRegs e.a e.rows e.cols }
  | .vblk e => { vregs := blockRegs e.a e.rows e.cols ++ vregCode e.b, masks := [e.mask.toNat] }
  | i =>
    match entryOf i with
    | none => {}
    | some e =>
      { vregs := vregCode e.a ++ vregCode e.b ++ vregCode e.c, masks := [e.mask.toNat]
        gregs := if namesBank i then [e.modBits 19 3] else [] }

/-- R21, R154: what an entry of a group writes in that group. -/
def writesOf (i : Instr) : Names :=
  match i with
  | .mand e | .mor e | .mnot e | .mset e => { masks := if e.d = 0 then [] else [e.d.toNat] }
  | .gadd e | .gli e | .gmov e => { gregs := [e.modBits 17 3] }
  | .mdrain e | .vblk e => { vregs := blockRegs e.d e.rows e.cols }
  | i =>
    match entryOf i with
    | none => {}
    | some e => { vregs := vregCode e.d, outs := outCode e.d }

/-- R176: the group that an entry of group `g` sends to, and the register the result arrives in. -/
def sendsTo (g : Nat) : Instr → Option (Nat × Nat)
  | .vshn e => some (if e.d = 56 then (g + 7) % 8 else (g + 1) % 8, e.modBits 0 6)
  | _ => none

end Sys2Proof.Machine
end

