-- ==== Sys2Proof/Machine/Table.lean ====
section
/-!
DEFINITION. Table images and their checks (R83, R95, R177, R195), and the commands `tload`, `tseal` (R196), `smload` (R197)
and `imload` (R198).
-/

namespace Sys2Proof.Machine

-- table images

/-- R95: FIRST, COUNT and whether they are in range. -/
def tableFirst (bs : List Byte) : Nat := fieldAt bs 0 2
def tableCount (bs : List Byte) : Nat := fieldAt bs 2 2
def tableRangeOk (bs : List Byte) : Bool := tableCount bs != 0 && decide (tableFirst bs + tableCount bs ≤ 1024)

/-- R95: bytes of an image of `n` indices. -/
def tableBytes (n : Nat) : Nat := 16 + (n + 7) / 8 * 8 + 64 * n

/-- R95: the class byte and an entry of the j-th index. -/
def tableClass (bs : List Byte) (j : Nat) : Nat := fieldAt bs (16 + j) 1
def tableEntry (bs : List Byte) (j g : Nat) : BitVec 64 :=
  let n := tableCount bs
  BitVec.ofNat 64 (fieldAt bs (16 + (n + 7) / 8 * 8 + 8 * (g * n + j)) 8)

/-- R98: an entry names L6 in FMT, in a format code of MOD or in N. -/
def namesL6 : Instr → Bool
  | .vcvt e => e.modBits 17 5 == 5 || e.modBits 12 5 == 5
  | .vquant e | .vdequant e | .vunpack e => e.fmt == 6
  | _ => false

/-- R182: the blocks of an entry fit the grid. -/
def blocksFit : Instr → Bool
  | .mdrain e => Entry.blockFits e.d e.rows e.cols
  | .mfeed e => Entry.blockFits e.a e.rows e.cols
  | .vblk e => Entry.blockFits e.d e.rows e.cols && Entry.blockFits e.a e.rows e.cols
  | _ => true

/-- An entry word as an instruction, where it decodes. -/
def entryInstr (w : BitVec 64) : Option Instr := decode .entry w.toNat

/-- R177: the registers that arrivals from its neighbours write in group `g`, entries given by group. -/
def arrivals (es : List (Option Instr)) (g : Nat) : List Nat :=
  (List.range 8).filterMap (fun k =>
    match es.getD k none with
    | some i => (match sendsTo k i with | some (t, v) => if t = g then some v else none | none => none)
    | none => none)

/-- Banks named by the entries of groups 0 to g. -/
def banksUpTo (es : List (Option Instr)) (g : Nat) : List Nat :=
  (List.range (g + 1)).filterMap (fun k =>
    match es.getD k none with
    | some i => if namesBank i then (entryOf i).map (fun e => e.bank.toNat) else none
    | none => none)

/-- Table 7.5: the refusal kinds of the entry of group `g` under an index of class `c`. -/
def entryFaults (l6 : Bool) (c : Nat) (es : List (Option Instr)) (g : Nat) : List Nat :=
  match es.getD g none with
  | none => [3]
  | some i =>
    let arr := arrivals es g
    let cls := match entryOf i with | some e => e.cls.toNat | none => 0
    let bank := match entryOf i with | some e => e.bank.toNat | none => 0
    (if !i.wf || (namesL6 i && !l6) then [3] else []) ++
    (if i != .entryNop && cls != c then [4] else []) ++
    (if i != .entryNop && cls < minClass i then [5] else []) ++
    (if !decide arr.Nodup || arr.any (fun v => (writesOf i).vregs.contains v) then [6] else []) ++
    (if namesBank i && 2 < ((banksUpTo es g).filter (· == bank)).length then [7] else []) ++
    (if !blocksFit i then [8] else [])

/-- Table 7.5: the first fault of the j-th index of an image: its group and kind. -/
def indexFault (l6 : Bool) (bs : List Byte) (j : Nat) : Option (Nat × Nat) :=
  let c := tableClass bs j
  if c = 0xFF then ((List.range 8).find? (fun g => tableEntry bs j g != 0)).map (fun g => (g, 1))
  else if 8 ≤ c then some (0, 1)
  else
    let es := (List.range 8).map (fun g => entryInstr (tableEntry bs j g))
    ((List.range 8).find? (fun g => !(entryFaults l6 c es g).isEmpty)).map (fun g => (g, (entryFaults l6 c es g).headD 0))

/-- The first index from the j-th on that has a fault. -/
def firstFault (l6 : Bool) (bs : List Byte) : Nat → Nat → Option EngFail
  | 0, _ => none
  | n + 1, j =>
    match indexFault l6 bs j with
    | some (g, k) => some { code := eTload, kind := k, index := tableFirst bs + j, group := g }
    | none => firstFault l6 bs n (j + 1)

/-- R195: the refusal of a table image, if any, in ascending index, group and KIND. -/
def tableRefusal (l6 sealed_ : Bool) (bs : List Byte) : Option EngFail :=
  if !tableRangeOk bs then some { code := eTload, kind := 1 }
  else
    let f := firstFault l6 bs (tableCount bs) 0
    if sealed_ then
      match f with
      | some e => if e.index = 0 ∧ e.group = 0 ∧ e.kind = 1 then some e else some { code := eTload, kind := 2 }
      | none => some { code := eTload, kind := 2 }
    else f

/-- R17: an index as an image writes it. -/
def indexOfImage (bs : List Byte) (j : Nat) : Index :=
  let ws := (List.range 8).map (tableEntry bs j)
  { cls := tableClass bs j
    commit := ws.any (fun w => match entryInstr w with | some i => commitsIndex i | none => false)
    entries := ws }

/-- R195: an accepted image is written into a bank. -/
def writeTable (bs : List Byte) (b : Bank) : Bank :=
  (List.range (tableCount bs)).foldl
    (fun b j => if tableClass bs j < 8 then b.set (tableFirst bs + j) (indexOfImage bs j) else b) b

/-- R195: `tload` reads its image. -/
def readTload (s : State) (ck x : Nat) (c : EngCmd) : Rd (List Byte) :=
  let a := c.word 0x10
  (rdAligned s ck x a 16 32).bind (fun h =>
    if tableRangeOk h then rdBytes s ck x a (tableBytes (tableCount h)) else .ok h)

/-- R195: `tload` at the table port: the core's back bank with the image, or the refusal. -/
def performTload (s : State) (ck x : Nat) (c : EngCmd) : State × Option EngFail :=
  match tableRefusal (declares s ck x 1) (s.core ck).sealed c.data with
  | some f => (s, some { f with detail := c.word 0x10 })
  | none => (s.modCore ck (fun k => { k with back := writeTable c.data k.back }), none)

/-- R196: `tseal` performs. -/
def performTseal (s : State) (ck : Nat) : State := s.modCore ck (fun k => { k with sealed := true })

/-- R195, R196: an earlier command at the core's table port has not completed. -/
def portBusy (s : State) (ck : Nat) (c : EngCmd) : Bool :=
  (s.core ck).ctxs.any (fun x => x.2.ec.any (fun e => e.2.cmds.any (fun k =>
    (k.op == 5 || k.op == 6) && k.started && decide (k.since < c.since))))

-- sparsity metadata

/-- R197: `smload` reads its records. -/
def readSmload (s : State) (ck x : Nat) (c : EngCmd) : Rd (List Byte) :=
  let w := c.word 0x18
  (Rd.check (!(s.ctx ck x).win.mxu) (fail eResource)).bind (fun _ =>
  (Rd.check (bitsOf w 7 1 != 0 || w / 2 ^ 16 != 0) (fail eBadBlock)).bind (fun _ =>
    rdBytes s ck x (c.word 0x10) (32 * (bitsOf w 8 8 + 1))))

/-- R197: the records are written into the side memory of each selected group. -/
def performSmload (s : State) (ck : Nat) (c : EngCmd) : State :=
  let w := c.word 0x18
  let gs := (List.range 8).filter (fun g => bitsOf c.opnd 0 8 == 0 || bitsOf c.opnd g 1 == 1)
  let put (g : Nat) (t : Tbl (BitVec 256)) : Tbl (BitVec 256) :=
    (List.range (bitsOf w 8 8 + 1)).foldl
      (fun t i => t.set (128 * g + (bitsOf w 0 7 + i) % 128) (BitVec.ofNat 256 (fieldAt c.data (32 * i) 32))) t
  s.modCore ck (fun k => { k with side := gs.foldl (fun t g => put g t) k.side })

-- IM

/-- R198: `imload` reads its bundles, then its pool map. -/
def readImload (s : State) (ck x : Nat) (c : EngCmd) : Rd (List Byte) :=
  let n := c.word 0x20
  (Rd.check (decide ((imageOf s ck x).im.length < c.word 0x18 + n)) (fail eBadBlock)).bind (fun _ =>
  (rdBytes s ck x (c.word 0x10) (32 * n)).bind (fun bs =>
    (rdBytes s ck x (c.word 0x28) ((n + 7) / 8)).map (fun m => bs ++ m)))

/-- IM position i of an `imload`: its bundle and pool bit. -/
def imloadWord (c : EngCmd) (n i : Nat) : ImWord :=
  { bits := BitVec.ofNat 256 (fieldAt c.data (32 * i) 32)
    pool := bitsOf (fieldAt c.data (32 * n + i / 8) 1) (i % 8) 1 == 1 }

/-- R198: the positions are written, and copies of them fetched ahead or held in the loop buffer go. -/
def performImload (s : State) (ck x : Nat) (c : EngCmd) : State :=
  let n := c.word 0x20
  match (s.core ck).bases.find (s.ctx ck x).launch with
  | none => s
  | some b =>
    let lo := b + c.word 0x18
    let hit (p : Nat) : Bool := decide (lo ≤ p) && decide (p < lo + n)
    s.modCore ck (fun k =>
      { k with im := (List.range n).foldl (fun t i => t.set (lo + i) (imloadWord c n i)) k.im
               ahead := k.ahead.filter (fun p => !hit p)
               lbuf := k.lbuf.filter (fun l => !(decide (l.2.1 < lo + n) && decide (lo ≤ l.2.2))) })

end Sys2Proof.Machine
end

