-- ==== Sys2Proof/Machine/Transaction.lean ====
section
/-!
DEFINITION. What a command of each kind reads as it starts, and layer transactions (R278 to R282): opening, commit in its
steps, abort and timeout.
-/

namespace Sys2Proof.Machine

/-- Bytes of a command's body after the header (Tables 7.4, 7.6, 10.2, 10.6, 10.7; R194 to R208, R290). -/
def bodyBytes (c : EngCmd) : Nat :=
  let o := c.op
  if o = 0x01 ∨ o = 0x02 then 0x18 else if o = 0x03 ∨ o = 0x04 ∨ o = 0x0D then 0x28 else if o = 0x05 then 8
  else if o = 0x07 then 0x10 else if o = 0x08 then 0x20 else if o = 0x09 then 0x40 else if o = 0x0B ∨ o = 0x0C then 0x20
  else if o = 0x0E then 0x18
  else if o = 0x11 then (if c.flags = 0 then 0x60 else if c.flags = 1 then 0x10 else 0)
  else if o = 0x12 ∨ o = 0x14 ∨ o = 0x15 then 0x10 else if o = 0x13 then 8 else 0

-- opening (R278)

def ltxId (c : EngCmd) : Nat := bitsOf (c.word 0x10) 0 16
def ltxCount (c : EngCmd) : Nat := bitsOf (c.word 0x10) 16 16
def ltxTimeout (c : EngCmd) : Nat := timeoutTicks (bitsOf (c.word 0x10) 32 32)

/-- R278: `ltx.open` reads its range entries. -/
def readLtxOpen (s : State) (ck x : Nat) (c : EngCmd) : Rd Move :=
  (Rd.check (ltxCount c == 0 || decide (16 < ltxCount c)) (fail eBadBlock)).bind (fun _ =>
    (rdBytes s ck x (c.word 0x18) (16 * ltxCount c)).map (fun bs => { data := bs }))

/-- What a command reads as it starts (R190): all of it before anything is written. -/
def readCommand (s : State) (ck x : Nat) (c : EngCmd) : Rd Move :=
  let o := c.op
  let data (r : Rd (List Byte)) : Rd Move := r.map (fun bs => { data := bs })
  if o = 0x01 then readCopy s ck x c
  else if o = 0x02 then readCopyx s ck x c
  else if o = 0x03 then readRows true s ck x c
  else if o = 0x04 then readRows false s ck x c
  else if o = 0x05 then data (readTload s ck x c)
  else if o = 0x07 then data (readSmload s ck x c)
  else if o = 0x08 then data (readImload s ck x c)
  else if o = 0x09 then readColl s ck x c
  else if o = 0x0B then readMldr s ck x c
  else if o = 0x0C then readMred s ck x c
  else if o = 0x0D then readRoute s ck x c
  else if o = 0x0E then readLtxOpen s ck x c
  else if 0x11 ≤ o ∧ o ≤ 0x15 then readAmp s ck x c
  else .ok {}

/-- A range entry's pages as fabric ranges; result ranges must be writable, inputs readable. -/
def rangePages (s : State) (ck x : Nat) (input : Bool) : List (Nat × Nat) → Rd (List (Nat × Nat × Bool))
  | [] => .ok []
  | (a, n) :: t =>
    match reachEng s ck x a (if input then .read else .write) with
    | .miss => .wait
    | .trap k => .bad (fail (eOfCause k) a)
    | .ok g =>
      match g.place with
      | .hbm fa => (rangePages s ck x input t).map (fun l => (fa, n, input) :: l)
      | _ => .bad (fail eProtection a)

/-- R278: the ranges of a transaction descriptor, fixed to fabric addresses at the open (DESIGN CHOICE, log entry 137). -/
def ltxRanges (s : State) (ck x : Nat) (c : EngCmd) : Rd (List (Nat × Nat × Bool)) :=
  (Rd.mapM (fun i =>
    let a := fieldAt c.data (16 * i) 8
    let w := fieldAt c.data (16 * i + 8) 8
    let n := w % 2 ^ 63
    if 2 ^ 56 < n then .bad (fail eTranslation a)
    else rangePages s ck x (decide (2 ^ 63 ≤ w)) (pagePieces (n / 65536 + 2) a n)) (List.range (ltxCount c))).map List.flatten

/-- R282: the ranges as the descriptor names them. -/
def ltxNamed (c : EngCmd) : List (Nat × Nat × Bool) :=
  (List.range (ltxCount c)).map (fun i =>
    let w := fieldAt c.data (16 * i + 8) 8
    (fieldAt c.data (16 * i) 8, w % 2 ^ 63, decide (2 ^ 63 ≤ w)))

/-- R278: the held transaction of a launch with an ID: one that is open, or aborted and not released. -/
def heldLtx (s : State) (launch id : Nat) : Option Ltx :=
  s.ltxs.find? (fun t => t.launch == launch && t.id == id && t.state != 1)

/-- R280: the transaction that an `ltx.commit` has committed and whose homes it has still to see perform. -/
def committedLtx (s : State) (ck x n num : Nat) : Option Ltx :=
  s.ltxs.find? (fun t => t.state == 1 && t.commit == some (ck, x, n, num))

/-- Ranges that share a byte with a range of a transaction. -/
def rangesMeet (l : List (Nat × Nat × Bool)) (t : Ltx) : Bool :=
  l.any (fun a => t.ranges.any (fun b => decide (a.1 < b.1 + b.2.1) && decide (b.1 < a.1 + a.2.1)))

/-- Where a state command of the amplitude engine writes (R204 to R208): the array of its die's state, its RESULT, the final map. -/
def ampWrites (s : State) (ck x : Nat) (c : EngCmd) : Rd (List (Nat × Nat)) :=
  let maps := (s.ctx ck x).ec.flatMap (fun e => e.2.cmds.filter (fun k => k.op == 0x11 && k.flags == 0 && decide (k.at_ < c.at_)))
  let array : Rd (List (Nat × Nat)) :=
    match (s.die (dieOf ck)).amp, maps with
    | some a, _ => .ok [(a.lbase, 8 * 2 ^ a.lbits)]
    | none, k :: _ => (rdBlock s ck x k.desc (bodyBytes k)).map (fun b =>
        [(({ k with body := b } : EngCmd).word 0x10, 8 * 2 ^ mapLbits { k with body := b })])
    | none, [] => .ok []
  if c.op = 0x11 then .ok (if c.flags = 2 then [(addr64 (c.desc + 0x40), 48)] else [])
  else
    let result := if c.op = 0x14 ∨ c.op = 0x15 then [(c.word 0x18, 4)] else []
    if c.op = 0x14 then .ok result else array.map (fun l => l ++ result)

/-- Where the entries of a tiled collective write (R288). -/
def tileWrites (s : State) (ck x : Nat) (c : EngCmd) : Rd (List (Nat × Nat)) :=
  let n := collTiles c * collFanout c
  (if c.started then Rd.ok c.data else rdBytes s ck x (c.word 0x28) (32 * n)).map (fun table =>
    (((List.range n).map (tileEntry table)).filter (fun e => e.op != 0)).map (fun e => (e.raddr, e.bytes)))

/-- Where a command may still write: its writes, or the results it waits for; it waits where that cannot be read yet (R350). -/
def commandWrites (s : State) (ck x : Nat) (c : EngCmd) : Rd (List (Nat × Nat)) :=
  (if c.started then Rd.ok c else (rdBlock s ck x c.desc (bodyBytes c)).map (fun b => { c with body := b })).bind (fun c1 =>
    if c1.op = 9 then
      (if collKind c1 ≤ 3 then .ok [(c1.word 0x30, dstBytes c1)] else if collKind c1 = 4 then tileWrites s ck x c1 else .ok [])
    else if isStateCmd c1 then ampWrites s ck x c1
    else if c1.op = 0x0B then
      (windowOf s ck x c1).map (fun w => [(c1.word 0x18, c1.word 0x28 * formatBits w.1.rfmt / formatBits w.1.fmt)])
    else if c1.started then .ok (c1.writes.map (fun w => (w.va, w.bytes.length)))
    else if c1.op = 1 then .ok (if c1.flags = 1 then [] else [(c1.word 0x18, c1.word 0x20)])
    else (readCommand s ck x c1).map (fun m => m.writes.map (fun w => (w.va, w.bytes.length))))

/-- Some of a written range is a result range of a transaction; a page that migrates is known by the address that the transaction's
descriptor names (R278). -/
def meetsRange (s : State) (ck x : Nat) (t : Ltx) (w : Nat × Nat) : Bool :=
  (pagePieces (w.2 / 65536 + 2) w.1 w.2).any (fun p =>
    match reachEng s ck x p.1 .write with
    | .ok g => (match g.place with | .hbm fa => covers false fa p.2 t | _ => false)
    | .miss => t.named.any (fun r => !r.2.2 && decide (r.1 < p.1 + p.2) && decide (p.1 < r.1 + r.2.1))
    | .trap _ => false)

/-- A command writes a result range of a transaction; `unread` where a page that migrates keeps its writes unknown. -/
def writesRange (s : State) (ck x : Nat) (c : EngCmd) (t : Ltx) (unread : Bool) : Bool :=
  match (commandWrites s ck x c).res with
  | .ok l => l.any (meetsRange s ck x t)
  | .wait => unread
  | .bad _ => false

/-- The accepted commands of a launch: context, engine context and command. -/
def launchCmds (s : State) (launch : Nat) : List (Nat × Nat × Nat × EngCmd) :=
  (members s launch).flatMap (fun m => (s.ctx m.1 m.2).ec.flatMap (fun e => e.2.cmds.map (fun c => (m.1, m.2, e.1, c))))

/-- R278, R282: `ltx.open` opens a transaction, or opens an aborted one again; its state word takes STATE 0. -/
def openLtx (s : State) (ck x : Nat) (c : EngCmd) : Rd State :=
  let launch := (s.ctx ck x).launch
  let word := addr64 (c.desc + 0x20)
  let state : List EWrite := [{ va := word, bytes := zeros 8 }]
  (ltxRanges s ck x c).bind (fun rs =>
    let t : Ltx :=
      { launch := launch, pkg := pkgOf ck, pasid := (s.ctx ck x).pasid, id := ltxId c, ranges := rs, named := ltxNamed c
        stateAt := word, spad := apertureOf ck x word, deadline := s.tick + ltxTimeout c, parties := [memberKey ck x] }
    let others := s.ltxs.filter (fun y => !(y.launch == launch && y.id == t.id && y.state != 1))
    match heldLtx s launch t.id with
    | some y =>
      (Rd.check (y.state != 2 || y.named != t.named) (fail eBadBlock)).bind (fun _ =>
        (checkWrites s ck x c state).map (fun _ =>
          (performWrites { s with ltxs := others ++ [t] } ck x c state).1))
    | none =>
      (Rd.check (others.any (fun y => y.state != 1 && rangesMeet rs y)) (fail eBadBlock)).bind (fun _ =>
      (Rd.check (decide (Config.heldTransactions ≤ (s.ltxs.filter (fun y => y.pkg == pkgOf ck && y.state != 1)).length)) (fail eResource)).bind (fun _ =>
        (checkWrites s ck x c state).map (fun _ => (performWrites { s with ltxs := others ++ [t] } ck x c state).1))))

-- commit (R280)

/-- R280 step 1: a command accepted before the commit still has to write a result range, or may have to, while a page that migrates
keeps its writes unknown. -/
def commitWaits (s : State) (t : Ltx) (c : EngCmd) : Bool :=
  (launchCmds s t.launch).any (fun m =>
    decide (m.2.2.2.at_ < c.at_) && m.2.2.2.trig.isNone && m.2.2.2.op != 0xF && writesRange s m.1 m.2.1 m.2.2.2 t true)

/-- Homes of the result ranges of a transaction. -/
def ltxHomes (t : Ltx) : List Nat := ((t.ranges.filter (fun r => !r.2.2)).map (fun r => homeOf r.1)).eraseDups

def State.setLtx (s : State) (old new : Ltx) : State :=
  { s with ltxs := s.ltxs.map (fun y => if y = old then new else y) }

/-- R350: the page of a transaction's state word migrates. -/
def stateWaits (s : State) (t : Ltx) : Bool := t.spad.isNone && reachProc s t.pkg t.pasid t.stateAt .write == .miss

/-- R280 steps 2 and 3: every home holds the buffered writes; STATE 1 is written. -/
def commitDecide (s : State) (ck x n : Nat) (c : EngCmd) (t : Ltx) : State :=
  let s1 := (writeStateWord s t 1).setLtx t
    { t with state := 1, homes := ltxHomes t, commit := some (ck, x, n, c.num) }
  s1.modCmd ck x n c.num (fun k => { k with ready := true })

/-- R280 step 4: one home performs its buffered writes. -/
def commitHome (s : State) (t : Ltx) (home : Nat) : State :=
  let mine := t.buffer.filter (fun b => homeOf b.1 == home)
  (s.performCells (.hbm 0) mine).setLtx t { t with homes := t.homes.filter (· != home) }

/-- The next step of a started `ltx.commit`; `pick` chooses the home. -/
def progressCommit (s : State) (ck x n : Nat) (c : EngCmd) (pick : Nat) : State :=
  if c.ready then
    match committedLtx s ck x n c.num with
    | none => s
    | some t => match t.homes[pick % t.homes.length]? with | some h => commitHome s t h | none => s
  else
    match heldLtx s (s.ctx ck x).launch (c.opnd % 65536) with
    | none => s
    | some t => if t.state = 0 ∧ !commitWaits s t c ∧ !stateWaits s t then commitDecide s ck x n c t else s

/-- R280, R282: the end of an `ltx.commit`, nothing while it is not over. -/
def endCommit (s : State) (ck x n : Nat) (c : EngCmd) : Rd State :=
  if c.ready then
    match committedLtx s ck x n c.num with
    | none => .ok s
    | some t => if t.homes.isEmpty then .ok { s with ltxs := s.ltxs.filter (· != t) } else .wait
  else
    match heldLtx s (s.ctx ck x).launch (c.opnd % 65536) with
    | none => .bad (fail eBadBlock)
    | some t => if t.state = 2 then .bad (fail eLtxAborted) else .wait

/-- R281, R282: `ltx.abort` aborts an open transaction and releases an aborted one. -/
def abortLtx (s : State) (ck x : Nat) (c : EngCmd) : Rd State :=
  let launch := (s.ctx ck x).launch
  match heldLtx s launch (c.opnd % 65536) with
  | none => .bad (fail eBadBlock)
  | some t =>
    if t.state = 0 then .ok (ltxAbort s t 4 0)
    else .ok { s with ltxs := s.ltxs.filter (· != t) }

/-- LTX_TIMEOUT (R281): TIMEOUT has passed for transaction `ev.num` of launch `ev.launch`. -/
def execLtxTimeout (s : State) : Out :=
  match heldLtx s s.ev.launch s.ev.num with
  | some t => if t.state = 0 ∧ t.deadline ≤ s.tick then .next (ltxAbort s t 2 0) else .next s
  | none => .next s

/-- R281: accepted commands of a context that write a range make it a party, started or not. One whose block cannot be read for a page
that migrates does not (DESIGN CHOICE, log entry 126). -/
def noteParties (s : State) (ck x : Nat) : State :=
  let mine := (s.ctx ck x).ec.flatMap (fun e => e.2.cmds.filter (fun c => c.trig.isNone))
  { s with ltxs := s.ltxs.map (fun t =>
      if t.state = 0 ∧ t.launch = (s.ctx ck x).launch ∧ mine.any (fun c => writesRange s ck x c t false)
      then { t with parties := addOnce (memberKey ck x) t.parties } else t) }

end Sys2Proof.Machine
end

