-- ==== Sys2Proof/Machine/Complete.lean ====
section
/-!
DEFINITION. An engine command's life after acceptance (R187 to R190): its start, with all that it reads, the steps it makes
on the way (R192, R280), and its end.
-/

namespace Sys2Proof.Machine

-- start

/-- R187, R200: the commands of the engine context numbered below have started, or hold nothing back. -/
def numberOrder (e : EngCtx) (c : EngCmd) : Bool :=
  c.late || e.cmds.all (fun k => decide (c.num ≤ k.num) || k.started || k.trig.isSome || k.late)

/-- R189: every earlier command with the tag has become visible. -/
def tagOrder (s : State) (ck x n : Nat) (c : EngCmd) : Bool :=
  match c.tag with
  | none => true
  | some t =>
    let mine (q : Nat × Nat × Nat × Nat × Nat) : Bool := q.2 == (ck, x, n, c.num)
    ((s.die (dieOf ck)).tagQ.takeWhile (fun q => !(q.1 == t && mine q))).all (fun q => q.1 != t || mine q)

/-- R202, R284: collectives and state commands of a context take their places in the order of acceptance. -/
def classOrder (s : State) (ck x : Nat) (c : EngCmd) : Bool :=
  let same (k : EngCmd) : Bool := (c.op == 9 && k.op == 9) || (isStateCmd c && isStateCmd k)
  (s.ctx ck x).ec.all (fun e => e.2.cmds.all (fun k => !(same k && decide (k.at_ < c.at_) && !k.started && k.trig.isNone)))

/-- R187 to R189: a command may start; R338 step 4: none of a context that comes to rest. -/
def mayStart (s : State) (ck x n : Nat) (c : EngCmd) : Bool :=
  !c.started && c.trig.isNone && (s.ctx ck x).status != .resting && numberOrder (s.eng ck x n) c && !unacked s ck x (max 1 c.snap.point) &&
  tagOrder s ck x n c && classOrder s ck x c

/-- A command that has started, with what it read or the failure it met. -/
def startedWith (s : State) (c : EngCmd) (body : List Byte) (m : Move) (f : Option EngFail) : EngCmd :=
  { c with started := true, since := s.free, startAt := s.tick, body := body, data := m.data, writes := m.writes
           verdict := c.verdict.orElse (fun _ => f)
           flagAt := if f.isSome then 0 else c.flagAt, ntiles := if f.isSome then 0 else c.ntiles }

/-- R288: a tiled collective knows its flags and tiles from its own block. -/
def withTiles (s : State) (ck x : Nat) (c : EngCmd) : EngCmd :=
  if c.op = 9 ∧ collKind c = 4 ∧ c.verdict.isNone then
    match flagsAt s ck x c with
    | some o => { c with flagAt := o, ntiles := collTiles c }
    | none => c
  else if c.op = 9 then { c with ntiles := 0 }
  else c

/-- What a command does as it has started: it joins its collective, its window's rounds or its engine's sequence, or loads the
matrix memory, so that the gates that start after it find its matrices (R187, R204, R309; log entry 100). -/
def afterStart (s : State) (ck x n : Nat) (c : EngCmd) : State :=
  if c.op = 9 then joinColl s ck x n c
  else if c.verdict.isSome then s
  else if c.op = 0x0B ∨ c.op = 0x0C then joinWindow s ck x n c
  else if isStateCmd c then joinAmp s ck x n c.num
  else if c.op = 0x11 then performMatrices s ck c
  else s

/-- R187, R190, R259: a command starts: it reads, its reads passing through its die's TLB and L2 (R239, R347), and takes its
range-scoreboard entries. -/
def startCmd (s : State) (ck x n : Nat) (c : EngCmd) : State :=
  let go (s : State) (c : EngCmd) (l : List (Nat × Nat)) : State :=
    let c1 := withTiles s ck x c
    engReads (afterStart (s.modCmd ck x n c.num (fun _ => c1)) ck x n c1) ck x l
  if c.verdict.isSome then go s (startedWith s c [] {} none) []
  else
    let b := rdBlock s ck x c.desc (bodyBytes c)
    match b.res with
    | .wait => s
    | .bad f => go s (startedWith s c [] {} (some f)) b.log
    | .ok body =>
      let r := readCommand s ck x { c with body := body }
      match r.res with
      | .wait => s
      | .bad f => go s (startedWith s c body {} (some f)) (b.log ++ r.log)
      | .ok m =>
        match takeRanges s ck x n c.num m.src m.dst with
        | none => s
        | some s1 => go s1 (startedWith s c body m none) (b.log ++ r.log)

/-- ENGINE_COMMAND_START (R187, R190): the command numbered `ev.num` on engine context `ev.ectx` starts, if it may. -/
def execEngineCommandStart (s : State) : Out :=
  let ck := s.ev.core
  let x := s.ev.ctx
  let n := s.ev.ectx
  match (s.eng ck x n).find s.ev.num with
  | none => .next s
  | some c => .next (if mayStart s ck x n c then startCmd s ck x n c else s)

-- handles (R192)

/-- The handle of group `g` that a command fills. -/
def hdstAt (s : State) (ck x g : Nat) (c : EngCmd) : Handle := (s.ctx ck x).arch.handles.get (8 * g + c.opnd % 8) {}

/-- Bytes at allocation offsets of a context's scratchpad; words that are written lose their marks (R359). -/
def putAlloc (k : Core) (c : Ctx) (o : Nat) (bs : List Byte) : Core :=
  let at_ (i : Nat) : Nat := spadPhys c.win.spad c.base (o + i)
  { k with spad := bs.zipIdx.foldl (fun m b => Mem.wr m (at_ b.2) b.1) k.spad
           spadUE := k.spadUE.filter (fun w => !(List.range bs.length).any (fun i => at_ i / 4 == w))
           spadOld := k.spadOld.filter (fun p => !(List.range bs.length).any (fun i => at_ i == p.2.1)) }

/-- Bytes of a FIFO memory, keyed 2 g + (0 A, 1 B); words that are written lose their marks (R359). -/
def putFifo (k : Core) (m o : Nat) (bs : List Byte) : Core :=
  let lo := 65536 * m + o / 4
  { k with fifos := k.fifos.set m (Mem.put (k.fifos.get m []) o bs)
           fifoUE := k.fifoUE.filter (fun w => decide (w < lo) || decide (lo + (bs.length + 3) / 4 ≤ w)) }

/-- One record goes into the next slot of a group's handle. -/
def fillHandleSlot (ck x : Nat) (c : EngCmd) (record : List Byte) (s : State) (g : Nat) : State :=
  let h := hdstAt s ck x g c
  let key := 8 * g + c.opnd % 8
  let k := s.ctx ck x
  let slot := (h.produced + k.engFill.get key 0) % max 1 h.desc.slots
  let d := record.take h.desc.slotBytes
  let e := record.drop h.desc.slotBytes
  let s1 := s.modCore ck (fun core =>
    let core1 :=
      if h.desc.kind = 0 then putAlloc core k (h.desc.base + slot * h.desc.slotBytes) d
      else putFifo core (2 * g + (h.desc.kind - 1)) (slot * h.desc.slotBytes) d
    if h.desc.scaled then putAlloc core1 k (h.desc.sbase + slot * h.desc.sbytes) e else core1)
  s1.modCtx ck x (fun y => { y with engFill := y.engFill.set key (y.engFill.get key 0 + 1) })

/-- Bytes of a slot with its scales. -/
def recordBytesOf (s : State) (ck x : Nat) (c : EngCmd) : Nat :=
  match selectedGroups c.opnd with
  | g :: _ => max 1 (hdstAt s ck x g c).desc.record
  | [] => 1

/-- Slots a command still has to fill. -/
def slotsLeft (s : State) (ck x : Nat) (c : EngCmd) : Nat := c.data.length / recordBytesOf s ck x c - c.slots

def isHdst (c : EngCmd) : Bool := (c.op == 1 || c.op == 2) && c.flags == 1

/-- R192: the next slot is written into every selected group, if each has one free. -/
def progressHdst (s : State) (ck x n : Nat) (c : EngCmd) : State :=
  let gs := selectedGroups c.opnd
  let r := recordBytesOf s ck x c
  if slotsLeft s ck x c = 0 || gs.any (fun g => (s.ctx ck x).freeSlots (8 * g + c.opnd % 8) == 0) then s
  else
    let s1 := gs.foldl (fillHandleSlot ck x c ((c.data.drop (c.slots * r)).take r)) s
    s1.modCmd ck x n c.num (fun k => { k with slots := k.slots + 1 })

/-- ENGINE_COMMAND_PROGRESS (R192, R280): one step of a started copy into a handle, or of a started `ltx.commit`, whose home
`ev.idx` chooses. -/
def execEngineCommandProgress (s : State) : Out :=
  let ck := s.ev.core
  let x := s.ev.ctx
  let n := s.ev.ectx
  match (s.eng ck x n).find s.ev.num with
  | none => .next s
  | some c =>
    if !c.started || c.verdict.isSome then .next s
    else if isHdst c then .next (progressHdst s ck x n c)
    else if c.op = 0xF then .next (progressCommit s ck x n c s.ev.idx)
    else .next s

-- the end

/-- Perform all writes of a command, or why it fails. -/
def endWrites (s : State) (ck x : Nat) (c : EngCmd) : Rd (State × Option EngFail) :=
  (checkWrites s ck x c c.writes).map (fun _ => performWrites s ck x c c.writes)

/-- R275: rows, map and status blocks are written in order; what was written before a fault stays. -/
def endRoute (ck x : Nat) (c : EngCmd) : List EWrite → State → Rd (State × Option EngFail)
  | [], s => .ok (s, none)
  | w :: t, s =>
    match (checkWrites s ck x c [w]).res with
    | .wait => .wait
    | .bad f => .ok (s, some f)
    | .ok _ =>
      let r := performWrites s ck x c [w]
      match r.2 with
      | some f => .ok (r.1, some f)
      | none => endRoute ck x c t r.1

/-- A write of a command that is not part of its result: done where it can be; nothing while it has to wait. -/
def tryWrites (s : State) (ck x : Nat) (c : EngCmd) : Option State :=
  match (checkWrites s ck x c c.writes).res with
  | .ok _ => some (performWrites s ck x c c.writes).1
  | .bad _ => some s
  | .wait => none

/-- What a command without failure does last: the state and its failure, if it still meets one; `wait` while it is not
over. -/
def endCmd (s : State) (ck x n : Nat) (c : EngCmd) : Rd (State × Option EngFail) :=
  let o := c.op
  let ok (s : State) : Rd (State × Option EngFail) := .ok (s, none)
  let plain (r : Rd State) : Rd (State × Option EngFail) := r.map (fun s => (s, none))
  if isHdst c then (if slotsLeft s ck x c = 0 then ok s else .wait)
  else if o = 5 then (if (s.core ck).sampled.isSome || portBusy s ck c then .wait else .ok (performTload s ck x c))
  else if o = 6 then (if (s.core ck).sampled.isSome || portBusy s ck c then .wait else ok (performTseal s ck))
  else if o = 7 then ok (performSmload s ck c)
  else if o = 8 then ok (performImload s ck x c)
  else if o = 9 then
    let k := collKind c
    (if k = 5 then plain (registerWindow s ck x c)
     else if k = 6 then plain (releaseByColl s ck x c)
     else if !c.ready then .wait
     else if k = 4 then (if c.fired.length < c.ntiles then .wait else ok s)
     else endWrites s ck x c)
  else if o = 0xA then plain (fireReady s ck x c)
  else if o = 0xB then (if atWindow s ck x n c.num then .wait else endWrites s ck x c)
  else if o = 0xC then (if atWindow s ck x n c.num then .wait else ok s)
  else if o = 0xD then endRoute ck x c c.writes s
  else if o = 0xE then plain (openLtx s ck x c)
  else if o = 0xF then plain (endCommit s ck x n c)
  else if o = 0x10 then plain (abortLtx s ck x c)
  else if o = 0x11 ∧ c.flags = 1 then ok s
  else if 0x11 ≤ o ∧ o ≤ 0x15 then (if c.ready then ok s else .wait)
  else if o = 0x17 then (if cancelWaits s ck x n c.opnd then .wait else ok (cancelTrigger s ck x n c.opnd))
  else endWrites s ck x c

/-- R190, R291, R292: what a failed command still does: a collective's abort record, the granules of an `mldr` that were
delivered under PARTIAL. -/
def failedCmd (s : State) (ck x n : Nat) (c : EngCmd) (f : EngFail) : Option State :=
  if c.op = 9 then tryWrites s ck x c
  else if c.op = 0xB ∨ c.op = 0xC then
    (if atWindow s ck x n c.num then none
     else if c.op = 0xB ∧ f.code = eAbsent then tryWrites s ck x c else some s)
  else some s

/-- A started command comes to its end, if it is over and its error record need not wait. -/
def completeCmd (s : State) (ck x n : Nat) (c : EngCmd) : State :=
  let done (t : State) (f : Option EngFail) : State :=
    if (match f with | some e => recordWaits t ck x n c e | none => false) then s
    else finishCmd (dropFlags t ck x c) ck x n c f
  match c.verdict with
  | some f =>
    (match failedCmd s ck x n c f with
     | some s1 => done s1 (some f)
     | none => s)
  | none =>
    match (endCmd s ck x n c).res with
    | .wait => s
    | .bad f => done s (some f)
    | .ok r => done r.1 r.2

/-- ENGINE_COMMAND_COMPLETE (R187, R190): the started command numbered `ev.num` on engine context `ev.ectx` completes, if it
is over. -/
def execEngineCommandComplete (s : State) : Out :=
  let ck := s.ev.core
  let x := s.ev.ctx
  let n := s.ev.ectx
  match (s.eng ck x n).find s.ev.num with
  | none => .next s
  | some c => .next (if c.started then completeCmd s ck x n c else s)

end Sys2Proof.Machine
end

