-- ==== Sys2Proof/Machine/Control.lean ====
section
/-!
DEFINITION. The control forms of slot S0: branches (R108 to R110), loop levels (R111 to R115), `dispatch` (R116), leaving a
context by `yield` and `exit` (R117, R118), `trap` (R119), `waitt` (R120), scope entries (R121 to R123) and `sluice`
(R124, R234, R235).
-/

namespace Sys2Proof.Machine

/-- R28: the bundle takes a branch to a bundle index. -/
def State.branchTo (s : State) (target : Nat) : State := { s with frame := { s.frame with target := some (target % 2 ^ 32) } }

/-- R108: PC + sext(OFF). -/
def brTarget (pc : Nat) (o : BitVec 22) : Nat := ((BitVec.ofNat 32 pc) + o.signExtend 32).toNat

/-- R108: whether a branch is taken. -/
def brTaken (s : State) (p : BitVec 3) (n : BitVec 1) : Bool := s.srcP p != (n == 1)

def execBr (p : BitVec 3) (n : BitVec 1) (o : BitVec 22) (s : State) : Out :=
  .next (if brTaken s p n then s.branchTo (brTarget s.frame.pc o) else s)

/-- R108: a taken call also writes s30. -/
def execCall (p : BitVec 3) (n : BitVec 1) (o : BitVec 22) (s : State) : Out :=
  .next (if brTaken s p n then
      (s.dstS 30 (BitVec.ofNat 64 ((s.frame.pc + 1) % 2 ^ 32))).branchTo (brTarget s.frame.pc o)
    else s)

/-- R109: a branch to the index in A[31:0]. -/
def branchReg (a : BitVec 5) (s : State) : State := s.branchTo ((s.srcS a).toNat % 2 ^ 32)

def execBri (a : BitVec 5) (s : State) : Out := .next (branchReg a s)

/-- R109: as `bri`, counted in RETURNS. -/
def execRet (a : BitVec 5) (s : State) : Out := .next ((branchReg a s).countCore s.frame.core 0x30)

-- loop levels

/-- R114: a running level whose last bundle is at an index. -/
def lastOfRunning (a : Arch) (pc : Nat) : Bool :=
  (List.range 6).any (fun n => let l := a.loops.get n {}; l.run && l.last == pc)

/-- R111: the faults of `loop` and `loopm` that are found as the form executes. -/
def loopGate (f : BitVec 11) (s : State) : Gate :=
  let k := s.frame
  gateIf (lastOfRunning k.old k.pc || decide ((imageOf s k.core k.ctx).im.length ≤ k.pc + f.toNat)) (.trap cIllegal)

/-- R111: start a level over PC + 1 … PC + F, or pass over the body when the count is 0, which leaves a level that is running as it was
(DESIGN CHOICE, log entry 105). -/
def startLoop (n : Nat) (count : Nat) (f : BitVec 11) (s : State) : State :=
  let pc := s.frame.pc
  if count = 0 then s.branchTo (pc + f.toNat + 1)
  else s.arch (fun a =>
    let old := a.loops.get n {}
    let lv := { old with run := true, remain := count, iter := 0, first := pc + 1, last := pc + f.toNat }
    { a with loops := a.loops.set n lv })

/-- R111: the count, saturated. -/
def loopCount (v : Word) : Nat := min v.toNat 0xFFFFFFFF

def execLoop (l : BitVec 3) (a : BitVec 5) (f : BitVec 11) (s : State) : Out :=
  behind (loopGate f s) s (startLoop l.toNat (loopCount (s.srcCount a)) f)

/-- R112: the gate of `loopm`: the level's faults, its scope, its block. -/
def loopmGate (a b : BitVec 5) (f : BitVec 11) (s : State) : Gate :=
  let ea := (s.srcS a).toNat
  Gate.all [loopGate f s, scopeGate s b.toNat, accessGate s ea 8 8 .read,
    gateIf (rangeMarked s s.frame.core s.frame.ctx [(ea, 8)]) (.trap cData)]

/-- R112: a level whose count is read from memory with an acquire, behind the context's earlier loads (R245). -/
def execLoopm (l : BitVec 3) (a b : BitVec 5) (f : BitVec 11) (s : State) : Out :=
  behind (loopmGate a b f s) s (fun s =>
    let s := performAllLoads s s.frame.core s.frame.ctx
    let ea := (s.srcS a).toNat
    let count := fieldAt (rangeBytes s s.frame.core s.frame.ctx [(ea, 8)]) 0 4
    startLoop l.toNat count f (acquire s s.frame.core s.frame.ctx b.toNat (s.scopeNow b.toNat)))

/-- R113: stride entry k of a level; s0 clears it. -/
def execLstride (d a : BitVec 5) (k : BitVec 2) (l : BitVec 3) (s : State) : Out :=
  .next (s.arch (fun x =>
    let lv := x.loops.get l.toNat {}
    let st := if d = 0 then lv.strides.erase k.toNat else lv.strides.set k.toNat (d.toNat, s.srcS a)
    { x with loops := x.loops.set l.toNat { lv with strides := st } }))

-- dispatch

/-- R96: the 96 bytes of a dispatch table at an image position. -/
def dtabBytes (s : State) (ck x pos : Nat) : List Byte :=
  (List.range 3).flatMap (fun i => match imAt s ck x (pos + i) with | some w => leBytes 32 w.bits.toNat | none => zeros 32)

/-- R116: the three positions are pool positions of the image. -/
def dtabInPool (s : State) (ck x pos : Nat) : Bool :=
  (List.range 3).all (fun i => match imAt s ck x (pos + i) with | some w => w.pool | none => false)

def dtabCap (bs : List Byte) (i : Nat) : Nat := fieldAt bs (8 + 4 * i) 4
def dtabPc (bs : List Byte) (i : Nat) : Nat := fieldAt bs (0x28 + 4 * i) 4

/-- R116: the faults of the table. -/
def dispatchGate (s : State) : Gate :=
  let f := s.frame
  let l := f.lit.toNat
  let bs := dtabBytes s f.core f.ctx (l / 32)
  let n := fieldAt bs 0 4
  gateIf (l % 32 != 0 || !dtabInPool s f.core f.ctx (l / 32) || n == 0 || decide (8 < n) ||
    !(List.range (n - 1)).all (fun i => decide (dtabCap bs i < dtabCap bs (i + 1)))) (.trap cIllegal)

/-- R116: the first bucket, of those from `i` on, that holds a count: capacity, padding and target. -/
def bucket (bs : List Byte) (c : Nat) : Nat → Nat → Nat × Nat × Nat
  | 0, _ => (c, 0, fieldAt bs 4 4)
  | n + 1, i => if c ≤ dtabCap bs i then (dtabCap bs i, dtabCap bs i - c, dtabPc bs i) else bucket bs c n (i + 1)

/-- R116: choose a capacity bucket and branch to it. -/
def execDispatch (d a b : BitVec 5) (s : State) : Out :=
  behind (dispatchGate s) s (fun s =>
    let f := s.frame
    let bs := dtabBytes s f.core f.ctx (f.lit.toNat / 32)
    let r := bucket bs (s.srcS a).toNat (fieldAt bs 0 4) 0
    ((s.dstS d (BitVec.ofNat 64 r.1)).dstS b (BitVec.ofNat 64 r.2.1)).branchTo r.2.2)

-- leaving a context

/-- R117 steps 1 and 2, R217: the context waits for its commands and, as a release, for its stores, before any part of the bundle is
performed. -/
def leaveGate (s : State) : Gate :=
  let f := s.frame
  let e := s.scopeNow (launchScope s f.core f.ctx)
  if f.clear then .go
  else Gate.all [gateIf (!enginesDone s.me) (.block .engines), gateIf (unacked s f.core f.ctx e.point) .stall]

/-- Every result in flight lands (R32 step 1). -/
def landAll (c : Ctx) : Ctx := { c.inflight.foldl landOne c with inflight := [] }

/-- The bundle's context stops for its leaving: its results land, its other stores and output entries are handed over, its loads are
dropped and its special registers are those of the bundle; it rests. -/
def retire_ (r : RestInfo) (was : Ctx) (c : Ctx) : Ctx :=
  { c with status := .resting, rest := some r, loads := [], interval := c.interval + 1, preempt := false, deferred := 0, ckOwed := 0,
           drain := false, inSluice := false, frame := was.frame, args := was.args, prio := was.prio }

/-- R117, R118, R217, R230: the bundle's context leaves: its record write or completion is a release (R261), made as soon as its
stores, those of this bundle among them, are acknowledged; nothing more of the bundle is performed. -/
def leaveFrame (r : RestInfo) (s : State) : State :=
  let f := s.frame
  let sl := s.modCtx f.core f.ctx (fun c =>
    let c' := landAll c
    { c' with released := c'.released ++ (heldOrder c'.arch.held).map .entry })
  let sh := handOver sl f.core f.ctx
  let sd := drainEntries (sh.ctx f.core f.ctx).released.length sh f.core f.ctx
  let s1 := settle (sd.modCtx f.core f.ctx (retire_ r f.was)) f.core f.ctx
  { s1 with frame := { f with todo := [], gone := true } }

/-- R117 steps 3 to 5: the context leaves with KIND `kind` in its record, which names the next bundle. -/
def yieldAs (kind : Nat) (s : State) : State := leaveFrame { kind := kind + 2, pc := s.frame.pc + 1 } s

def execYield (s : State) : Out := behind (leaveGate s) s (yieldAs 1)
def execYieldPark (s : State) : Out := behind (leaveGate s) s (yieldAs 2)

/-- R118, R230: the item completes, with error status when a TERR bit is set. -/
def exitItem (s : State) : State := leaveFrame { kind := 5, cause := if s.frame.was.terr = 0 then 0 else 1 } s

def execExit (s : State) : Out := behind (leaveGate s) s exitItem

/-- R119: SW_TRAP with the code in TCAUSE. -/
def execTrap (i : BitVec 16) (s : State) : Out := .next (s.trapFrame cSwTrap i.toNat)

-- waitt

/-- R120: the wait blocks below the threshold; a counter beyond the window is a resource fault (R13). -/
def waittGate (a : BitVec 5) (n : BitVec 3) (s : State) : Gate :=
  Gate.all [gateIf (decide (s.me.win.tcount ≤ n.toNat)) (.trap cResource),
    gateIf (decide ((s.me.eng n.toNat).tl < (s.srcCount a).toNat)) (.block .timeline)]

/-- R120, R257, R261: the acquire of a passing `waitt`. -/
def waittAcquire (s : State) (ck x : Nat) : State :=
  (observe (refetch (s.modCtx ck x (fun c => { c with interval := c.interval + 1 })) ck x) ck x).modDie (dieOf ck)
    (Die.dropRemote (dieOf ck))

def execWaitt (p : BitVec 3) (a : BitVec 5) (n : BitVec 3) (s : State) : Out :=
  behind (waittGate a n s) s (fun s =>
    (waittAcquire s s.frame.core s.frame.ctx).dstP p (!s.frame.was.terr.getLsbD n.toNat))

-- scope entries

/-- R121: the entry that a checked descriptor gives over an old one. -/
def newScope (s : State) (old : Scope) (bs : List Byte) : Scope :=
  let e := { scopeOfBytes bs with set := true, stale := false, gen := if old.set then (old.gen + 1) % 16 else 1 }
  { e with stale := namesRetired s (pkgOf s.frame.core) e }

/-- R123: the copy of an entry in the memory scope table. -/
def scopeCopyAt (s : State) (n : Nat) : Nat := s.me.scopeTab + 160 * n

/-- R123: write entry n, and its memory copy as a withheld store. -/
def writeScope (n : Nat) (bs : List Byte) (s : State) : State :=
  let e := newScope s (s.frame.old.scopes.get n {}) bs
  let s1 := s.arch (fun a => { a with scopes := a.scopes.set n e })
  storeRange s1 s.frame.core s.frame.ctx (blockPieces (scopeCopyAt s n) 160) (scopeBytes e)

/-- R121: the gate of `scope.set`. -/
def scopeSetGate (n a : BitVec 5) (s : State) : Gate :=
  let f := s.frame
  let ea := (s.srcS a).toNat
  let ps := blockPieces ea 160
  Gate.all [accessGate s ea 160 32 .read, gateIf (rangeMarked s f.core f.ctx ps) (.trap cData),
    gateIf (!scopeDescOk (rangeBytes s f.core f.ctx ps)) (.trap cScope),
    accessGate s (scopeCopyAt s n.toNat) 160 1 .write]

def execScopeSet (n a : BitVec 5) (s : State) : Out :=
  behind (scopeSetGate n a s) s (fun s =>
    let s := performAllLoads s s.frame.core s.frame.ctx
    writeScope n.toNat (rangeBytes s s.frame.core s.frame.ctx (blockPieces (s.srcS a).toNat 160)) s)

/-- R122: the image's template for an index. -/
def scopeTemplate (s : State) (n : Nat) : Option (List Byte) :=
  (imageOf s s.frame.core s.frame.ctx).scopesT.find n

/-- R122: the gate of `scope.load`. -/
def scopeLoadGate (n : BitVec 5) (s : State) : Gate :=
  match scopeTemplate s n.toNat with
  | none => .trap cScope
  | some bs => Gate.all [gateIf (!scopeDescOk bs) (.trap cScope), accessGate s (scopeCopyAt s n.toNat) 160 1 .write]

def execScopeLoad (n : BitVec 5) (s : State) : Out :=
  behind (scopeLoadGate n s) s (fun s => writeScope n.toNat ((scopeTemplate s n.toNat).getD []) s)

-- sluice

/-- R234: members of a launch on a core, by context; one that rests has left. -/
def coreMembers (c : Core) (launch : Nat) : List (Nat × Ctx) :=
  c.ctxs.filter (fun k => k.2.resident && k.2.launch == launch && k.2.status != .resting)

/-- R234: the sluice numbered `n` waits for a member, or the member waits in it. -/
def inTheSluice (n : Nat) (c : Ctx) : Bool := c.inSluice || decide (c.joins.get 24 0 ≤ n)

/-- R235: the last member of the core that the sluice numbered `n` waits for has blocked in it. -/
def coreArrived (c : Core) (launch n : Nat) : Bool :=
  let l := coreMembers c launch
  l.any (fun k => k.2.inSluice) && l.all (fun k => k.2.inSluice || !inTheSluice n k.2)

/-- R235: when a core's last member blocks in `sluice`, the core reports its arrival and samples its seal; a report whose
members have all left is void (R234). -/
def sluiceReport (s : State) (ck : Nat) : State :=
  let c := s.core ck
  match c.sampled with
  | some (id, _) =>
    if (coreMembers c id).any (fun k => k.2.inSluice) then s else s.setCore ck { c with sampled := none }
  | none =>
    match s.launches.find? (fun l => coreArrived c l.id l.sluiceCount) with
    | some l => s.setCore ck { c with sampled := some (l.id, c.sealed) }
    | none => s

/-- R234: the launch's count is past the context's. -/
def sluicePassed (s : State) : Bool :=
  match s.launchOf s.frame.core s.frame.ctx with
  | some l => decide (s.me.sluiceCount < l.sluiceCount)
  | none => true

/-- R124, R234: a sluice whose count is behind completes at once and takes the launch's count; any other blocks, and
counts as an arrival of its core. -/
def execSluice (s : State) : Out :=
  let f := s.frame
  if sluicePassed s then
    .next (s.modMe (fun c =>
      { c with inSluice := false
               sluiceCount := match s.launch c.launch with | some l => l.sluiceCount | none => c.sluiceCount }))
  else
    .next (sluiceReport ((s.blockFrame .sluice).modCtx f.core f.ctx (fun c => { c with inSluice := true })) f.core)

end Sys2Proof.Machine
end

