-- ==== Sys2Proof/Machine/Select.lean ====
section
/-!
DEFINITION. The X forms: the column select unit (R209 to R213) with its stages, and the control of the random-bit queue
(R214) with its fill slots (R58).
-/

namespace Sys2Proof.Machine

/-- R79: X-slot no-operation. -/
def execXnop (s : State) : Out := .next s

/-- Columns of a range (R209). -/
def colRange (c g : BitVec 3) : List Nat := (List.range 8).filter (fun n => decide (c.toNat ≤ n) && decide (n ≤ c.toNat + g.toNat))

/-- Key of a column's usable-from cycle. -/
def colKey (x c : Nat) : Nat := 8 * x + c

/-- R22, R210: what an X form on columns finds at issue. -/
def colGate (cols : List Nat) (s : State) : Gate :=
  let k := s.myCore
  let x := s.frame.ctx
  let busy := decide (k.cycle < k.colBusy)
  Gate.pick [gateIf (busy && k.colCtx == x) (.trap cSchedule),
    gateIf (cols.any (fun c => decide (k.cycle < k.colFrom.get (colKey x c) 0))) (.trap cSchedule),
    gateIf (busy && k.colCtx != x) .stall]

/-- R13: registers beyond the window. -/
def regsGate (rs : List (BitVec 6)) (s : State) : Gate :=
  gateIf (rs.any (fun r => decide (s.me.win.vregs ≤ r.toNat))) (.trap cResource)

/-- R359: marked registers that a column form reads. -/
def colMarkGate (g : BitVec 3) (rs : List (BitVec 6)) (s : State) : Gate :=
  gateIf (rs.any (fun r => s.myCore.regBad (1024 * s.frame.ctx + 64 * g.toNat + r.toNat))) (.trap cData)

/-- R210: a form of `n` stages occupies the unit, and its columns are usable from a cycle. -/
def occupy (n : Nat) (cols : List Nat) (from_ : Nat) (s : State) : State :=
  s.modCore s.frame.core (fun k =>
    { k with colBusy := k.cycle + n, colCtx := s.frame.ctx
             colFrom := cols.foldl (fun t c => t.set (colKey s.frame.ctx c) (k.cycle + from_)) k.colFrom })

/-- Row `r` of a pair of registers of group `g`, as they stood before the bundle. -/
def pairRow (s : State) (g a b : Nat) (r : Nat) : Lane :=
  if r < 32 then laneOf (s.frame.old.v.get (64 * g + a) 0) r else laneOf (s.frame.old.v.get (64 * g + b) 0) (r - 32)

/-- Key and tag of a cell. -/
def cellKey (c : BitVec 48) : Lane := c.setWidth 32
def cellTag (c : BitVec 48) : BitVec 16 := c.extractLsb' 32 16
def mkCell (k : Lane) (t : BitVec 16) : BitVec 48 := t ++ k

/-- Write every cell of a column. -/
def setColumn (c : Nat) (f : Nat → BitVec 48) (a : Arch) : Arch :=
  { a with cols := (List.range 64).foldl (fun t r => t.set (64 * c + r) (f r)) a.cols }

def execCload (g : BitVec 3) (a b : BitVec 6) (c : BitVec 3) (r : BitVec 1) (s : State) : Out :=
  behind (Gate.pick [regsGate [a, b] s, colMarkGate g [a, b] s, colGate [c.toNat] s]) s (fun s =>
    (occupy 1 [c.toNat] 2 s).arch (fun y => setColumn c.toNat (fun i =>
      mkCell (pairRow s g.toNat a.toNat b.toNat i) (if r = 1 then BitVec.ofNat 16 i else cellTag (colCell y c.toNat i))) y))

def execCtag (g : BitVec 3) (a b : BitVec 6) (c : BitVec 3) (s : State) : Out :=
  behind (Gate.pick [regsGate [a, b] s, colMarkGate g [a, b] s, colGate [c.toNat] s]) s (fun s =>
    (occupy 1 [c.toNat] 2 s).arch (fun y => setColumn c.toNat (fun i =>
      mkCell (cellKey (colCell y c.toNat i)) ((pairRow s g.toNat a.toNat b.toNat i).setWidth 16)) y))

/-- R212: 32 rows of a column as a register: keys, or tags zero-extended. -/
def columnReg (a : Arch) (c lo : Nat) (tags : Bool) : VReg :=
  vregOf (fun l => let x := colCell a c (lo + l); if tags then (cellTag x).setWidth 32 else cellKey x)

/-- R210: a register of group `g` takes a column's rows at the end of the next cycle. -/
def storeRows (g i : Nat) (v : VReg) (s : State) : State :=
  (s.modMe (fun c => { c with shadowV := addOnce (64 * g + i) c.shadowV })).expose
    { group := g, dest := .vreg i, data := v, lanes := BitVec.allOnes 32, due := s.myCore.cycle + 1 }

def execCstore (g : BitVec 3) (a b : BitVec 6) (c : BitVec 3) (k : BitVec 1) (s : State) : Out :=
  behind (Gate.pick [regsGate [a, b] s, colGate [c.toNat] s]) s (fun s =>
    let y := s.frame.old
    storeRows g.toNat b.toNat (columnReg y c.toNat 32 (k == 1))
      (storeRows g.toNat a.toNat (columnReg y c.toNat 0 (k == 1)) (occupy 1 [] 0 s)))

/-- R213: a `cx` starts; its stages follow. -/
def execCx (g c j d b : BitVec 3) (s : State) : Out :=
  let n := b.toNat + 1
  let cols := colRange c g
  behind (colGate cols s) s (fun s =>
    (occupy n cols (n + 1) s).modCore s.frame.core (fun k =>
      let o : ColOp :=
        { ctx := s.frame.ctx, lo := c.toNat, hi := c.toNat + g.toNat, j := j.toNat, d := d.toNat, s := 0, beats := n
          due := k.cycle }
      { k with colOps := k.colOps ++ [o] }))

def execCclr (g c : BitVec 3) (s : State) : Out :=
  let cols := colRange c g
  behind (colGate cols s) s (fun s =>
    (occupy 1 cols 2 s).arch (fun y =>
      { y with cols := y.cols.filter (fun p => !cols.contains (p.1 / 64)) }))

-- stages

/-- R211: cell x ranks before cell y. -/
def ranksBefore (x y : BitVec 48) : Bool :=
  match val32 (cellKey x).toNat, val32 (cellKey y).toNat with
  | .nan, .nan => (cellTag x).ult (cellTag y)
  | .nan, _ => false
  | _, .nan => true
  | a, b => let d := a.cmp b; decide (0 < d) || (d == 0 && (cellTag x).ult (cellTag y))

/-- R213: what row `r` of a column holds after a compare-exchange at distance 2^h. -/
def exchange (a : Arch) (c h d r : Nat) : BitVec 48 :=
  let up := r / 2 ^ h % 2 == 1
  let i := if up then r - 2 ^ h else r
  let k := i + 2 ^ h
  let x := colCell a c i
  let y := colCell a c k
  let desc := d == 6 || (decide (d ≤ 5) && i / 2 ^ d % 2 == 0)
  let swap := if desc then ranksBefore y x else ranksBefore x y
  if swap != up then y else x

/-- R213: a stage of a `cx` on its context's columns. -/
def stageArch (o : ColOp) (a : Arch) : Arch :=
  ((List.range 8).filter (fun c => decide (o.lo ≤ c) && decide (c ≤ o.hi))).foldl
    (fun b c => setColumn c (exchange a c (o.j - o.s) o.d) b) a

/-- R210: stages that are due by a cycle, one of each operation; an operation ends with its last. -/
def stageCore (cycle : Nat) (k : Core) : Core :=
  let r := k.colOps.foldl
    (fun (a : Core × List ColOp) o =>
      if o.due ≤ cycle then
        let c := a.1.ctx o.ctx
        let k' := a.1.setCtx o.ctx { c with arch := stageArch o c.arch }
        (k', if o.s + 1 < o.beats then a.2 ++ [{ o with s := o.s + 1, due := o.due + 1 }] else a.2)
      else (a.1, a.2 ++ [o]))
    (k, [])
  { r.1 with colOps := r.2 }

/-- COLUMN_STAGE (R210). -/
def execColumnStage (s : State) : Out := .next (s.modCore s.ev.core (fun k => stageCore k.cycle k))

-- the random-bit queue

def execRngseed (g : BitVec 3) (a : BitVec 6) (s : State) : Out :=
  behind (Gate.pick [regsGate [a] s, colMarkGate g [a] s]) s (fun s =>
    let v := s.frame.old.v.get (64 * g.toNat + a.toNat) 0
    s.arch (fun y => { y with rbq := [], rfill := (laneOf v 1).toNat * 2 ^ 32 + (laneOf v 0).toNat }))

def execRngctl (f e : BitVec 1) (s : State) : Out :=
  .next (s.arch (fun y => { y with rngOn := e == 1, rbq := if f = 1 then [] else y.rbq }))

/-- R214: a context qualifies for a fill slot. -/
def rbqRoom (c : Ctx) : Bool := c.resident && c.arch.rngOn && decide (c.arch.rbq.length < Config.rbqEntries)

/-- R58: one entry is filled. -/
def fillRbq (c : Ctx) : Ctx :=
  let a := c.arch
  { c with arch := { a with rbq := a.rbq ++ [BitVec.ofNat 8192 (fillEntry a.rngKey.toNat a.rfill 64)]
                            rfill := (a.rfill + 1) % 2 ^ 64 } }

/-- R214: the fill slot of a core in a cycle counted from the package's reset, once. -/
def fillSlot (count : Nat) (k : Core) : Core :=
  if count % 4 ≠ 0 || k.rngAt == count + 1 then k
  else
    match ((List.range 4).map (fun i => (k.rngLast + 1 + i) % 4)).find? (fun x => rbqRoom (k.ctx x)) with
    | none => k
    | some x => { k.setCtx x (fillRbq (k.ctx x)) with rngLast := x, rngAt := count + 1 }

/-- RBQ_FILL_SLOT (R214). -/
def execRbqFillSlot (s : State) : Out := .next (s.modCore s.ev.core (fillSlot (cycleCount s s.ev.core)))

end Sys2Proof.Machine
end

