-- ==== Sys2Proof/Machine/Spad.lean ====
section
/-!
DEFINITION. The scratchpad entries of a lane group: row and indexed accesses (R171 to R173) and the full/empty and atomic
entries that a core's atomic unit serves (R174, R175).
-/

namespace Sys2Proof.Machine

/-- R171: bytes of a context's share of each bank. -/
def bankShare (s : State) : Nat := s.me.win.spad / 8

/-- R173: offsets within the share that the lanes of a row access reach. -/
def rowOffset (s : State) (e : Entry) (l : Nat) : Nat := (s.greg (e.modBits 19 3)).toNat + 128 * e.modBits 9 10 + 4 * l

/-- R173: offsets within the share that the lanes of an indexed access reach. -/
def idxOffset (s : State) (e : Entry) (l : Nat) : Nat :=
  (s.greg (e.modBits 19 3)).toNat + 4 * (laneOf (s.entSrc e.b) l).toNat

/-- The active lanes of an entry with the offsets they reach. -/
def laneOffsets (s : State) (e : Entry) (idx : Bool) : List (Nat × Nat) :=
  let o := if idx then idxOffset s e else rowOffset s e
  (activeLanes (s.lanes e)).map (fun l => (l, o l))

/-- R171: the physical scratchpad offset of an offset within the entry's bank. -/
def bankPhys (s : State) (e : Entry) (o : Nat) : Nat :=
  spadPhys s.me.win.spad s.me.base (e.bank.toNat * bankShare s + o)

/-- R259: the byte of the range scoreboard that an offset within the entry's bank stands for. -/
def bankByte (s : State) (e : Entry) (o : Nat) : Nat := 2 ^ 20 * s.frame.ctx + e.bank.toNat * bankShare s + o

/-- R19, R259: bytes of the access overlap a copy in flight. -/
def rangeHit (s : State) (e : Entry) (writes : Bool) (offs : List (Nat × Nat)) : Bool :=
  s.myCore.ranges.any (fun r => (r.write || writes) &&
    offs.any (fun p => decide (r.lo < bankByte s e p.2 + 4) && decide (bankByte s e p.2 < r.hi)))

/-- R359: a word of the access is marked uncorrectable. -/
def wordMarked (s : State) (e : Entry) (offs : List (Nat × Nat)) : Bool :=
  offs.any (fun p => s.myCore.spadUE.contains (bankPhys s e p.2 / 4))

/-- R171, R173: the gates of a scratchpad entry: alignment, bounds, marks of words it reads, copies in flight. -/
def spadGates (s : State) (e : Entry) (idx reads writes : Bool) : List Gate :=
  let g := (s.greg (e.modBits 19 3)).toNat
  let offs := laneOffsets s e idx
  [gateIf (g % (if idx then 4 else 128) != 0) (.trap cAlignment),
   gateIf (offs.any (fun p => decide (bankShare s < p.2 + 4))) (.trap cResource),
   gateIf (reads && wordMarked s e offs) (.trap cData),
   gateIf (rangeHit s e writes offs) .stall]

-- plain accesses

/-- R172: a word as the bundle's loads read it. -/
def spadWord (s : State) (p : Nat) : Lane := BitVec.ofNat 32 (Mem.nat s.frame.spad p 4)

/-- R173: a load entry. -/
def spadLoad (idx : Bool) (e : Entry) (s : State) : Out :=
  entForm e false (spadGates s e idx true false) (fun s =>
    s.emitLanes e (fun l => spadWord s (bankPhys s e (if idx then idxOffset s e l else rowOffset s e l)))) s

/-- R172, R173: a store entry: its active lanes in ascending order. -/
def spadStore (idx : Bool) (data : BitVec 6) (e : Entry) (s : State) : Out :=
  entForm e false (spadGates s e idx false true) (fun s =>
    let v := s.entSrc data
    (laneOffsets s e idx).foldl
      (fun t p =>
        let o := bankPhys s e p.2
        noteFlag (t.perform (.spad s.frame.core o) (leBytes 4 (laneOf v p.1).toNat)) s.frame.core s.frame.ctx o 4) s) s

def execSpld (e : Entry) (s : State) : Out := spadLoad false e s
def execSpst (e : Entry) (s : State) : Out := spadStore false e.a e s
def execSpldx (e : Entry) (s : State) : Out := spadLoad true e s
def execSpstx (e : Entry) (s : State) : Out := spadStore true e.c e s

-- requests at the atomic unit

/-- R174, R175: the operations of a unit entry, lanes ascending, with the lane each belongs to. -/
def unitOps (s : State) (e : Entry) (idx : Bool) (op : Nat → Nat → UnitOp) : List (Nat × UnitOp) :=
  (laneOffsets s e idx).map (fun p => (p.1, op p.1 (bankPhys s e p.2)))

def fullOps (s : State) (e : Entry) : List (Nat × UnitOp) := unitOps s e false (fun _ p => .ldtake (p / 4))
def emptyOps (s : State) (e : Entry) : List (Nat × UnitOp) :=
  let v := s.entSrc e.a
  unitOps s e false (fun l p => .stfill (p / 4) (laneOf v l))
def addOps (s : State) (e : Entry) : List (Nat × UnitOp) :=
  let v := s.entSrc e.c
  unitOps s e true (fun l p => .rmw p 4 (if e.fmt = 1 then opFadd else opAdd) ((laneOf v l).setWidth 64) 0)

/-- A unit entry on its own: it waits at the unit unless the bundle's joint request has been cleared (R174). -/
def unitForm (e : Entry) (idx reads : Bool) (ops : List (Nat × UnitOp)) (go : State → List (Nat × Word) → State)
    (s : State) : Out :=
  let us := ops.map (·.2)
  let g := entGate e false (spadGates s e idx reads true ++ [gateIf (!s.frame.joint) (unitGate s.frame.core us s)]) s
  behindUnit s.frame.core us g s (fun s =>
    let r := unitGo s.frame.core us s
    go r.1 ((ops.map (·.1)).zip r.2))

/-- The word that a lane was answered. -/
def laneWord (ws : List (Nat × Word)) (l : Nat) : Lane :=
  match ws.find? (fun p => p.1 == l) with
  | some p => p.2.setWidth 32
  | none => 0

def execSpldFull (e : Entry) (s : State) : Out :=
  unitForm e false true (fullOps s e) (fun s ws => s.emitLanes e (laneWord ws)) s
def execSpstEmpty (e : Entry) (s : State) : Out := unitForm e false false (emptyOps s e) (fun s _ => s) s
def execSpatomAdd (e : Entry) (s : State) : Out :=
  unitForm e true true (addOps s e) (fun s ws => s.emitLanes e (laneWord ws)) s

end Sys2Proof.Machine
end

