-- ==== Sys2Proof/Machine/Bundle.lean ====
section
/-!
DEFINITION. A bundle as issue sees it: its forms by slot (R70, R73), the literal rules (R72), the registers its forms read and
name (R12, R15, R99, R126), the checks of ILLEGAL_BUNDLE (R84), RESOURCE (R13, R18) and SCHEDULE (R21, R22), the forms that make
a bundle committing (R33), and the gate of every form (R335).
-/

namespace Sys2Proof.Machine

-- forms

/-- The slot class of a position. -/
def posSlot : Pos → Slot
  | .s0 => .s
  | .s1 => .s
  | .a => .a
  | .g => .g
  | .e => .e
  | .x => .x
  | .lg _ => .entry

/-- The syllable of a slot (Table 0.5). -/
def posWord (b : Bundle) : Pos → Nat
  | .s0 => syllable b 1
  | .s1 => syllable b 2
  | .a => syllable b 3
  | .g => syllable b 4
  | .e => syllable b 5
  | .x => syllable b 6
  | .lg _ => 0

def hdrOf (b : Bundle) : BitVec 32 := BitVec.ofNat 32 (syllable b 0)
def litOf (b : Bundle) : BitVec 32 := BitVec.ofNat 32 (syllable b 7)

/-- The slots in the order of R335. -/
def slotOrder : List Pos := [.s0, .s1, .a, .g, .e, .x]

/-- The form in a slot; none for an all-zero A, G or E syllable (R74) and for what does not decode. -/
def formAt (b : Bundle) (p : Pos) : Option Instr := decode (posSlot p) (posWord b p)

/-- R74: a slot holds no form: an all-zero A, G or E syllable. -/
def emptyAt (b : Bundle) (p : Pos) : Bool :=
  posWord b p == 0 && (p == .a || p == .g || p == .e)

-- literals

/-- R72: the literal kind of a form. -/
inductive LitKind where
  | none
  | optional
  | required
  deriving DecidableEq, Repr

/-- The literal kinds of every form (R99 to R123, Table 5.2, R185, R209). -/
def litKind : Instr → LitKind
  | .add _ _ _ | .sub _ _ _ | .mul _ _ _ | .mulh _ _ _ | .mulhn _ _ _ | .div _ _ _ | .divn _ _ _ | .rem _ _ _
  | .remn _ _ _ | .and _ _ _ | .or _ _ _ | .xor _ _ _ | .andn _ _ _ | .shl _ _ _ | .shrl _ _ _ | .shra _ _ _
  | .rotl _ _ _ | .min _ _ _ | .max _ _ _ | .minn _ _ _ | .maxn _ _ _ | .addx _ _ _ _ _ | .sel _ _ _ _ | .li _ _
  | .lih _ _ _ | .loop _ _ _ | .waitt _ _ _ => .optional
  | .cmpiCc _ _ _ | .dispatch _ _ _ | .cbadv _ _ _ => .required
  | .ldb _ _ _ _ _ _ _ | .ldbn _ _ _ _ _ _ _ | .ldh _ _ _ _ _ _ _ | .ldhn _ _ _ _ _ _ _ | .ldw _ _ _ _ _ _ _
  | .ldwn _ _ _ _ _ _ _ | .ldd _ _ _ _ _ _ _ | .stb _ _ _ _ _ _ | .sth _ _ _ _ _ _ | .stw _ _ _ _ _ _
  | .std _ _ _ _ _ _ | .ldfull _ _ _ _ _ | .ldtake _ _ _ _ _ | .stfill _ _ _ _ _ | .stforce _ _ _ _ _
  | .fetag _ _ _ | .feset _ _ _ | .atomAdd _ _ _ _ _ _ | .atomAnd _ _ _ _ _ _ | .atomOr _ _ _ _ _ _
  | .atomXor _ _ _ _ _ _ | .atomMin _ _ _ _ _ _ | .atomMax _ _ _ _ _ _ | .atomMinn _ _ _ _ _ _
  | .atomMaxn _ _ _ _ _ _ | .atomSwap _ _ _ _ _ _ | .atomCas _ _ _ _ _ _ | .atomFadd _ _ _ _ _
  | .atomFmin _ _ _ _ _ | .atomFmax _ _ _ _ _ | .redAdd _ _ _ _ _ | .redAnd _ _ _ _ _ | .redOr _ _ _ _ _
  | .redXor _ _ _ _ _ | .redMin _ _ _ _ _ | .redMax _ _ _ _ _ | .redMinn _ _ _ _ _ | .redMaxn _ _ _ _ _
  | .redFadd _ _ _ _ | .redFmin _ _ _ _ | .redFmax _ _ _ _ | .tktTake _ _ _ _ | .tktServe _ _ _ | .tktWait _ _ _ _
  | .sbind _ _ _ _ _ | .cbinit _ _ _ _ | .pref _ _ _ _ => .optional
  | _ => .none

/-- R99, R103, R111, R120: fields that must be zero in a form that LO names. -/
def litFields : Instr → Bool
  | .add _ _ b | .sub _ _ b | .mul _ _ b | .mulh _ _ b | .mulhn _ _ b | .div _ _ b | .divn _ _ b | .rem _ _ b
  | .remn _ _ b | .and _ _ b | .or _ _ b | .xor _ _ b | .andn _ _ b | .shl _ _ b | .shrl _ _ b | .shra _ _ b
  | .rotl _ _ b | .min _ _ b | .max _ _ b | .minn _ _ b | .maxn _ _ b | .addx _ _ b _ _ | .sel _ _ b _ => b == 0
  | .li _ i | .lih _ _ i => i == 0
  | .loop _ a _ | .waitt _ a _ => a == 0
  | _ => true

/-- R72: the literal fault of one slot. -/
def litFaultAt (b : Bundle) (p : Pos) : Bool :=
  let named := hdrLo (hdrOf b) == posLo p
  match (if emptyAt b p then none else formAt b p) with
  | none => named
  | some i =>
    match litKind i with
    | .none => named
    | .optional => named && !litFields i
    | .required => !named

/-- R72: a literal without an owner, or a fault of a slot that may own one. -/
def litFault (b : Bundle) : Bool :=
  (hdrLo (hdrOf b) == 0 && litOf b != 0) || [Pos.s0, .s1, .a, .e, .x].any (litFaultAt b)

-- registers

/-- Scalar registers that a form reads. -/
def srcRegs : Instr → List (BitVec 5)
  | .add _ a b | .sub _ a b | .mul _ a b | .mulh _ a b | .mulhn _ a b | .div _ a b | .divn _ a b | .rem _ a b
  | .remn _ a b | .and _ a b | .or _ a b | .xor _ a b | .andn _ a b | .shl _ a b | .shrl _ a b | .shra _ a b
  | .rotl _ a b | .min _ a b | .max _ a b | .minn _ a b | .maxn _ a b | .addx _ a b _ _ | .sel _ a b _ => [a, b]
  | .clz _ a | .ctz _ a | .popc _ a | .addi _ a _ | .andi _ a _ | .ori _ a _ | .xori _ a _ | .shli _ a _ | .shrli _ a _
  | .shrai _ a _ | .lih _ a _ | .cmpiCc _ a _ | .puts a _ | .bri a | .ret a | .loop _ a _ | .loopm _ a _ _
  | .lstride _ a _ _ | .dispatch _ a _ | .waitt _ a _ | .scopeSet _ a => [a]
  | .cmpCc _ a b _ => [a, b]
  | .ldb _ b x _ _ _ _ | .ldbn _ b x _ _ _ _ | .ldh _ b x _ _ _ _ | .ldhn _ b x _ _ _ _ | .ldw _ b x _ _ _ _
  | .ldwn _ b x _ _ _ _ | .ldd _ b x _ _ _ _ | .ldfull _ b x _ _ | .ldtake _ b x _ _ | .fetag _ b x
  | .pref b x _ _ | .sbind _ _ b x _ | .cbinit _ b x _ | .tktWait b x _ _ => [b, x]
  | .stb d b x _ _ _ | .sth d b x _ _ _ | .stw d b x _ _ _ | .std d b x _ _ _ | .stfill d b x _ _ | .stforce d b x _ _
  | .feset d b x => [d, b, x]
  | .atomAdd _ b x _ _ _ | .atomAnd _ b x _ _ _ | .atomOr _ b x _ _ _ | .atomXor _ b x _ _ _ | .atomMin _ b x _ _ _
  | .atomMax _ b x _ _ _ | .atomMinn _ b x _ _ _ | .atomMaxn _ b x _ _ _ | .atomSwap _ b x _ _ _
  | .atomFadd _ b x _ _ | .atomFmin _ b x _ _ | .atomFmax _ b x _ _ | .redAdd b x _ _ _ | .redAnd b x _ _ _
  | .redOr b x _ _ _ | .redXor b x _ _ _ | .redMin b x _ _ _ | .redMax b x _ _ _ | .redMinn b x _ _ _
  | .redMaxn b x _ _ _ | .redFadd b x _ _ | .redFmin b x _ _ | .redFmax b x _ _ => [b, x]
  | .atomCas _ b x z _ _ => if z = 2 then [b, x, x + 1, x + 2, x + 3] else [b, x, x + 1]
  | .tktTake _ b _ _ | .tktServe b _ _ => [b]
  | .sstop _ _ x | .srewind _ _ x | .cbadv _ _ x => [x]
  | .copy d o _ _ _ | .copyx d o _ _ _ | .smload d o _ | .tready d o _ | .ltxCommit d o _ _ | .ltxAbort d o _ _
  | .cancel d o _ => [d, o]
  | .gather d _ _ | .scatter d _ _ | .tload d _ | .tseal d _ | .imload d _ | .coll d _ _ | .mldr d _ _ | .mred d _ _
  | .route d _ _ | .ltxOpen d _ _ | .aeMap d _ _ | .aeMapMatrices d _ _ | .aeMapUnmap d _ _ | .aeGate d _ _
  | .aeSwap d _ _ | .aeNorm d _ _ | .aeProj d _ _ | .trig d _ => [d]
  | _ => []

/-- R99: scalar registers that a form writes, `call`'s s30 among them; the registers of `lstride` are written at back-edges. -/
def dstRegs : Instr → List (BitVec 5)
  | .add d _ _ | .sub d _ _ | .mul d _ _ | .mulh d _ _ | .mulhn d _ _ | .div d _ _ | .divn d _ _ | .rem d _ _
  | .remn d _ _ | .and d _ _ | .or d _ _ | .xor d _ _ | .andn d _ _ | .shl d _ _ | .shrl d _ _ | .shra d _ _
  | .rotl d _ _ | .min d _ _ | .max d _ _ | .minn d _ _ | .maxn d _ _ | .addx d _ _ _ _ | .sel d _ _ _
  | .clz d _ | .ctz d _ | .popc d _ | .addi d _ _ | .andi d _ _ | .ori d _ _ | .xori d _ _ | .shli d _ _ | .shrli d _ _
  | .shrai d _ _ | .li d _ | .lih d _ _ | .gets d _ => [d]
  | .call _ _ _ => [30]
  | .dispatch d _ b => [d, b]
  | .ldb d _ _ _ _ _ _ | .ldbn d _ _ _ _ _ _ | .ldh d _ _ _ _ _ _ | .ldhn d _ _ _ _ _ _ | .ldw d _ _ _ _ _ _
  | .ldwn d _ _ _ _ _ _ | .ldd d _ _ _ _ _ _ | .ldfull d _ _ _ _ | .ldtake d _ _ _ _ | .fetag d _ _
  | .atomAdd d _ _ _ _ _ | .atomAnd d _ _ _ _ _ | .atomOr d _ _ _ _ _ | .atomXor d _ _ _ _ _ | .atomMin d _ _ _ _ _
  | .atomMax d _ _ _ _ _ | .atomMinn d _ _ _ _ _ | .atomMaxn d _ _ _ _ _ | .atomSwap d _ _ _ _ _
  | .atomFadd d _ _ _ _ | .atomFmin d _ _ _ _ | .atomFmax d _ _ _ _ | .tktTake d _ _ _ => [d]
  | .atomCas d _ _ z _ _ => if z = 2 ∧ d ≠ 0 then [d, d + 1] else [d]
  | _ => []

/-- Predicates that a form writes. -/
def dstPreds : Instr → List (BitVec 3)
  | .addx _ _ _ k _ => [k]
  | .cmpCc p _ _ _ | .cmpiCc p _ _ => [p]
  | .pand d _ _ | .por d _ _ | .pxor d _ _ | .pnot d _ => [d]
  | .waitt p _ _ => [p]
  | _ => []

/-- The forms of the S0, S1, A, E and X slots with their positions. -/
def coreForms (b : Bundle) : List (Pos × Instr) :=
  [Pos.s0, .s1, .a, .e, .x].filterMap (fun p => if emptyAt b p then none else (formAt b p).map (fun i => (p, i)))

/-- R12, R99: two forms of the bundle write one scalar register or predicate; s0 and p0 are exempt. -/
def doubleDest (b : Bundle) : Bool :=
  let ds := (coreForms b).flatMap (fun f => (dstRegs f.2).filter (· != 0))
  let ps := (coreForms b).flatMap (fun f => (dstPreds f.2).filter (· != 0))
  !decide ds.Nodup || !decide ps.Nodup

-- ILLEGAL_BUNDLE

/-- Table 3.1, R30, R71: an illegal field value of the header. -/
def hdrIllegal (h : BitVec 32) : Bool :=
  bitsOf h.toNat 24 8 != 0 || decide (5 < hdrLo h) || decide (5 < hdrLv h) || hdrIt h == 3 ||
  (hdrIt h == 0 && hdrLv h != 0) || (hdrBp h == 0 && hdrBn h)

/-- R75: forms that stand in S0 only. -/
def s0Only : Instr → Bool
  | .br _ _ _ | .bri _ | .call _ _ _ | .ret _ | .loop _ _ _ | .loopm _ _ _ _ | .lstride _ _ _ _ | .dispatch _ _ _
  | .yield | .yieldPark | .exit | .trap _ | .waitt _ _ _ | .scopeSet _ _ | .scopeLoad _ | .sluice => true
  | _ => false

/-- Table 3.18: forms of the amplitude engine. -/
def isAe : Instr → Bool
  | .aeMap _ _ _ | .aeMapMatrices _ _ _ | .aeMapUnmap _ _ _ | .aeGate _ _ _ | .aeSwap _ _ _ | .aeNorm _ _ _
  | .aeProj _ _ _ => true
  | _ => false

/-- R74, R76 to R79: the syllable of a slot is no instruction, or one with a field value that its own rule refuses. -/
def slotIllegal (b : Bundle) (p : Pos) : Bool :=
  !emptyAt b p && (match formAt b p with | none => true | some i => !i.wf)

/-- R16: index, argument and selected groups of the G syllable; none for FORM none. -/
def bcastOf (b : Bundle) : Option (Nat × BitVec 8 × List Nat) :=
  match (if emptyAt b .g then none else formAt b .g) with
  | some (.bx i a) => some (i.toNat, a, List.range 8)
  | some (.bxm i a m) => some (i.toNat, a, (List.range 8).filter (fun g => m.getLsbD g))
  | _ => none

/-- R111: the body of a level that `loop` or `loopm` starts. -/
def loopBody : Instr → Option Nat
  | .loop _ _ f => some f.toNat
  | .loopm _ _ _ f => some f.toNat
  | _ => none

/-- R116: the literal of a `dispatch` names no three positions of an image's extent. -/
def tableBeyond (l extent : Nat) : Bool := l % 32 != 0 || decide (extent < l / 32 + 3)

/-- R84: what makes a bundle illegal whether or not it executes, for a context of an image. -/
def illegalStatic (s : State) (ck x : Nat) (b : Bundle) : Bool :=
  let forms := coreForms b
  hdrIllegal (hdrOf b) || slotOrder.any (slotIllegal b) || litFault b ||
  (match formAt b .s1 with | some i => s0Only i | none => false) || doubleDest b ||
  (match formAt b .s0 with | some (.dispatch _ _ _) => tableBeyond (litOf b).toNat (imageOf s ck x).im.length | _ => false) ||
  forms.any (fun f =>
    (isAe f.2 && !(imageOf s ck x).features.getLsbD 2) ||
    (match f.2 with | .cbadv _ _ _ => litOf b == 0 || decide (65536 ≤ (litOf b).toNat) | _ => false) ||
    (match loopBody f.2 with | some n => decide ((imageOf s ck x).im.length ≤ (s.ctx ck x).arch.pc + n) | none => false)) ||
  (match bcastOf b with | some (i, _, _) => ((s.core ck).front.find i).isNone | none => false)

-- the frame of a bundle

/-- R17: entry words of an index as instructions, by group; the all-zero entry is a no-operation. -/
def groupForms (s : State) (ck idx : Nat) (gs : List Nat) : List (Pos × Instr) :=
  match (s.core ck).front.find idx with
  | none => []
  | some ix => gs.filterMap (fun g =>
      match entryInstr (ix.entries.getD g 0) with
      | some .entryNop => none
      | some i => some (.lg g, i)
      | none => none)

/-- The entries that a bundle's G syllable selects. -/
def bundleGroups (s : State) (ck : Nat) (b : Bundle) : List (Pos × Instr) :=
  match bcastOf b with
  | some (i, _, gs) => groupForms s ck i gs
  | none => []

/-- R17, R20: class and commit flag of the index that a bundle selects. -/
def indexOf (s : State) (ck : Nat) (b : Bundle) : Nat × Bool :=
  match bcastOf b with
  | some (i, _, _) => (match (s.core ck).front.find i with | some ix => (ix.cls, ix.commit) | none => (0, false))
  | none => (0, false)

/-- R174: an entry that asks the core's scratchpad atomic unit. -/
def asksUnit : Instr → Bool
  | .spldFull _ | .spstEmpty _ | .spatomAdd _ => true
  | _ => false

/-- R174: the groups that a bundle selects make a request at the core's unit. -/
def hasJoint (s : State) (ck : Nat) (b : Bundle) : Bool := (bundleGroups s ck b).any (fun f => asksUnit f.2)

/-- R172: a scratchpad as the loads of a context's bundle read it: bytes that its own request has changed already, and that nobody
has written since, read as before (log entry 98). -/
def readSpad (x : Nat) (c : Core) : Mem := (c.spadOld.filter (fun p => p.1 == x)).foldl (fun m p => Mem.wr m p.2.1 p.2.2) c.spad

/-- The frame of a context's bundle, before anything of it is performed. -/
def openFrame (s : State) (ck x : Nat) (b : Bundle) : State :=
  let c := s.ctx ck x
  let ix := indexOf s ck b
  let f : Frame := { active := true, core := ck, ctx := x, pc := c.arch.pc, hdr := hdrOf b, lit := litOf b
                     arg := (match bcastOf b with | some (_, a, _) => a | none => 0)
                     cls := ix.1, old := c.arch, was := c, spad := readSpad x (s.core ck), joint := hasJoint s ck b }
  { s with frame := f }

/-- The state as the form at a position is performed or checked. -/
def State.at (s : State) (p : Pos) : State := { s with frame := { s.frame with pos := p } }

-- whether a bundle executes

/-- R30: the iteration filter passes. -/
def filterPasses (h : BitVec 32) (a : Arch) : Bool :=
  let l := a.loops.get (hdrLv h) {}
  hdrIt h == 0 || !l.run || (if hdrIt h = 1 then l.iter == 0 else l.remain == 1)

/-- R71: the bundle executes. -/
def executes (h : BitVec 32) (a : Arch) : Bool := (readP a.p (hdrBp h) != hdrBn h) && filterPasses h a

-- committing bundles

/-- R33: a form that makes its bundle committing. -/
def commits : Instr → Bool
  | .loopm _ _ _ _ | .yield | .yieldPark | .exit | .waitt _ _ _ | .sluice => true
  | .ldb _ _ _ _ _ _ o | .ldbn _ _ _ _ _ _ o | .ldh _ _ _ _ _ _ o | .ldhn _ _ _ _ _ _ o | .ldw _ _ _ _ _ _ o
  | .ldwn _ _ _ _ _ _ o | .ldd _ _ _ _ _ _ o | .stb _ _ _ _ _ o | .sth _ _ _ _ _ o | .stw _ _ _ _ _ o
  | .std _ _ _ _ _ o => o != 0
  | .qmark | .sbind _ _ _ _ _ | .sstop _ _ _ | .srewind _ _ _ | .cbinit _ _ _ _ | .cbadv _ _ _ | .l1inv
  | .pref _ _ _ _ => false
  | i => slotOf i == .a || slotOf i == .e

/-- R33: an executing bundle is committing. -/
def bundleCommits (s : State) (ck : Nat) (b : Bundle) : Bool := (indexOf s ck b).2 || (coreForms b).any (fun f => commits f.2)

-- RESOURCE

/-- R13: an operand code that names a latch beyond the window. -/
def latchBeyond (w : Windows) (c : BitVec 6) : Bool := decide (48 ≤ c.toNat) && decide (c.toNat < 56) && decide (w.latches ≤ c.toNat - 48)

/-- Tiles that an entry names. -/
def tilesOf : Instr → List Nat
  | .mma e | .mmaSp e | .mzero e | .mfeed e | .mdrain e => [e.tile]
  | .vblk e => if e.blkOp = 5 then [e.tile] else []
  | _ => []

/-- Tiles that an entry writes. -/
def tilesWritten : Instr → List Nat
  | .mma e | .mmaSp e | .mzero e | .mfeed e => [e.tile]
  | .mdrain e => if e.modBits 21 1 = 1 then [e.tile] else []
  | _ => []

def usesMxu : Instr → Bool
  | .mma _ | .mmaSp _ => true
  | _ => false

/-- R13, R176, R180, R182: a name of an entry beyond its context's windows. -/
def entryBeyond (w : Windows) (i : Instr) : Bool :=
  let r := readsOf i
  let d := writesOf i
  (r.vregs ++ d.vregs).any (fun v => decide (w.vregs ≤ v)) || d.outs.any (fun k => decide (w.queues ≤ k)) ||
  (match entryOf i with | some e => latchBeyond w e.a || latchBeyond w e.b || latchBeyond w e.c | none => false) ||
  (tilesOf i).any (fun t => decide (w.tiles ≤ t)) || (usesMxu i && !w.mxu) ||
  (match sendsTo 0 i with | some (_, v) => decide (w.vregs ≤ v) | none => false)

/-- The engine context that an E form names. -/
def engineOf : Instr → Option (BitVec 3)
  | .copy _ _ n _ _ | .copyx _ _ n _ _ => some n
  | .gather _ n _ | .scatter _ n _ | .coll _ n _ | .mldr _ n _ | .mred _ n _ | .route _ n _ | .ltxOpen _ n _
  | .aeMap _ n _ | .aeMapMatrices _ n _ | .aeMapUnmap _ n _ | .aeGate _ n _ | .aeSwap _ n _ | .aeNorm _ n _
  | .aeProj _ n _ => some n
  | .tload _ n | .tseal _ n | .imload _ n | .trig _ n => some n
  | .smload _ _ n | .tready _ _ n | .cancel _ _ n => some n
  | .ltxCommit _ _ n _ | .ltxAbort _ _ n _ => some n
  | _ => none

/-- Vector registers that an X form reads and writes, with their group. -/
def colReads : Instr → Option (Nat × List Nat)
  | .cload g a b _ _ | .ctag g a b _ => some (g.toNat, [a.toNat, b.toNat])
  | .rngseed g a => some (g.toNat, [a.toNat])
  | _ => none

def colWrites : Instr → Option (Nat × List Nat)
  | .cstore g a b _ _ => some (g.toNat, [a.toNat, b.toNat])
  | _ => none

/-- R13: a slot form names a resource beyond the windows. -/
def formBeyond (w : Windows) (i : Instr) : Bool :=
  match i with
  | .barArrive l n _ _ | .barWait l n _ _ => l != 0 && decide (w.bars.getD (l.toNat - 1) 0 ≤ n.toNat)
  | .sbind k n _ _ _ | .sstop k n _ | .srewind k n _ =>
    if k = 0 then decide (w.latches ≤ n.toNat) else decide (w.queues ≤ n.toNat)
  | .cbinit k _ _ _ | .cbadv _ k _ => if 6 ≤ k.toNat then !w.mxu else decide (w.handles ≤ k.toNat)
  | .waitt _ _ n => decide (w.tcount ≤ n.toNat)
  | i =>
    (match engineOf i with | some n => decide (w.tcount ≤ n.toNat) | none => false) ||
    (match colReads i with | some (_, l) => l.any (fun v => decide (w.vregs ≤ v)) | none => false) ||
    (match colWrites i with | some (_, l) => l.any (fun v => decide (w.vregs ≤ v)) | none => false)

/-- R13, R18: RESOURCE of an executing bundle. -/
def bundleResource (s : State) (ck x : Nat) (b : Bundle) : Bool :=
  let c := s.ctx ck x
  ((bcastOf b).isSome && (s.core ck).owner != some c.launch) ||
  (List.range 8).any (fun k => hdrPopq (hdrOf b) k && decide (c.win.latches ≤ k)) ||
  (coreForms b).any (fun f => formBeyond c.win f.2) || (bundleGroups s ck b).any (fun f => entryBeyond c.win f.2)

-- SCHEDULE

/-- R21: a result in flight to something of a group that a list of names holds. -/
def pendingIn (g : Nat) (n : Names) (p : Pending) : Bool :=
  p.group == g && (match p.dest with
    | .vreg i => n.vregs.contains i
    | .mask k => n.masks.contains k
    | .greg k => n.gregs.contains k
    | _ => false)

/-- R21: a result of the context is in flight to a name. -/
def isPending (c : Ctx) (g : Nat) (n : Names) : Bool := c.inflight.any (pendingIn g n)

/-- R21, R22, R154, R176: SCHEDULE of an entry of group `g`. -/
def entrySchedule (s : State) (ck x g : Nat) (i : Instr) : Bool :=
  let c := s.ctx ck x
  isPending c g (readsOf i) || isPending c g (writesOf i) ||
  (match sendsTo g i with | some (t, v) => isPending c t { vregs := [v] } | none => false) ||
  (usesMxu i && decide ((s.core ck).cycle < (s.core ck).mxuBusy.get g 0))

/-- R210: columns that an X form reads or writes. -/
def colsOf : Instr → List Nat
  | .cload _ _ _ c _ | .ctag _ _ _ c | .cstore _ _ _ c _ => [c.toNat]
  | .cx g c _ _ _ | .cclr g c => colRange c g
  | _ => []

/-- R21, R22, R210: SCHEDULE of an X form. -/
def colSchedule (s : State) (ck x : Nat) (i : Instr) : Bool :=
  let c := s.ctx ck x
  let k := s.core ck
  let cols := colsOf i
  (match colReads i with | some (g, l) => isPending c g { vregs := l } | none => false) ||
  (match colWrites i with | some (g, l) => isPending c g { vregs := l } | none => false) ||
  (!cols.isEmpty && k.colCtx == x && decide (k.cycle < k.colBusy)) ||
  cols.any (fun n => decide (k.cycle < k.colFrom.get (colKey x n) 0))

/-- SCHEDULE of an executing bundle. -/
def bundleSchedule (s : State) (ck x : Nat) (b : Bundle) : Bool :=
  (bundleGroups s ck b).any (fun f => match f.1 with | .lg g => entrySchedule s ck x g f.2 | _ => false) ||
  (match formAt b .x with | some i => colSchedule s ck x i | none => false)

-- control-core results

/-- R15, R126: a control-core result that the bundle needs is not ready, or the LDQ's head is not there. -/
def operandStall (s : State) (ck x : Nat) (b : Bundle) : Bool :=
  let a := (s.ctx ck x).arch
  let t := (s.core ck).cycle
  let srcs := (coreForms b).flatMap (fun f => (srcRegs f.2).map (·.toNat))
  let dsts := (coreForms b).flatMap (fun f => (dstRegs f.2).map (·.toNat))
  (srcs ++ dsts).any (fun r => r != 0 && (a.sWait.find r).isSome) ||
  srcs.any (fun r => r != 0 && decide (t < a.sReady.get r 0)) ||
  ((srcs.contains 31 || hdrPopl (hdrOf b)) && (match a.ldq with | [] => true | e :: _ => e.val.isNone))

-- gates

/-- R359: a form reads a scalar register, mask or group address register that is marked uncorrectable. -/
def heldMarks (s : State) (f : Pos × Instr) : Gate :=
  let x := s.frame.ctx
  let bad := s.myCore.regBad
  gateIf (!s.myCore.regUE.isEmpty &&
    (match f.1 with
     | .lg g => (readsOf f.2).masks.any (fun k => bad (maskMark x g k)) || (readsOf f.2).gregs.any (fun k => bad (gregMark x g k))
     | _ => (srcRegs f.2).any (fun r => bad (scalarMark x r.toNat)))) (.trap cData)

/-- R114: registers to which the back-edge of a bundle at `this` adds a stride, by levels n − 1 down to 0. -/
def strideRegs : Nat → Nat → Arch → List Nat
  | 0, _, _ => []
  | n + 1, this, a =>
    let l := a.loops.get n {}
    if !l.run || l.last != this then strideRegs n this a
    else if 1 < l.remain then l.strides.map (fun e => e.2.1)
    else strideRegs n this a

/-- R28: a form of S0 that leaves the bundle by a taken branch. -/
def takesBranch (s : State) (i : Instr) : Bool :=
  match i with
  | .br p n _ | .call p n _ => brTaken s p n
  | .bri _ | .ret _ | .dispatch _ _ _ => true
  | _ => false

/-- R114, R359: the back-edge of the bundle whose frame is open reads a register that is marked uncorrectable and that none of the
forms `forms` writes. -/
def strideMarks (s : State) (forms : List (Pos × Instr)) : Gate :=
  let f := s.frame
  let written := forms.flatMap (fun i => (dstRegs i.2).map (·.toNat))
  gateIf (!s.myCore.regUE.isEmpty && !forms.any (fun i => i.1 == .s0 && takesBranch (s.at .s0) i.2) &&
    (strideRegs 6 f.pc f.old).any (fun r => !written.contains r && s.myCore.regBad (scalarMark f.ctx r))) (.trap cData)

/-- The gate of an entry (R25 to R27, R171, R173, R180 to R184). -/
def entryGate (i : Instr) (s : State) : Gate :=
  match i with
  | .vcvt e | .vquant e | .vpack e => entGate e (roundsSR e) [] s
  | .spld e => entGate e false (spadGates s e false true false) s
  | .spst e => entGate e false (spadGates s e false false true) s
  | .spldx e => entGate e false (spadGates s e true true false) s
  | .spstx e => entGate e false (spadGates s e true false true) s
  | .spldFull e => entGate e false (spadGates s e false true true) s
  | .spstEmpty e => entGate e false (spadGates s e false false true) s
  | .spatomAdd e => entGate e false (spadGates s e true true true) s
  | .mma e => entGate e false (mmaGates e false s) s
  | .mmaSp e => entGate e false (mmaGates e true s) s
  | .mzero e => entGate e false (tileGates s e.tile false) s
  | .mfeed e => entGate e false (blockGates s (blockRegs e.a e.rows e.cols) ++ tileGates s e.tile false) s
  | .mdrain e => entGate e (roundsSR e)
      (gateIf (blockBeyond s (blockRegs e.d e.rows e.cols)) (.trap cResource) :: tileGates s e.tile true) s
  | .vblk e => entGate e false
      (blockGates s (blockRegs e.a e.rows e.cols) ++
       [gateIf (blockBeyond s (blockRegs e.d e.rows e.cols)) (.trap cResource)] ++
       (if e.blkOp = 5 then tileGates s e.tile true else [])) s
  | .mand _ | .mor _ | .mnot _ => .go
  | i => match entryOf i with | some e => entGate e false [] s | none => .go

/-- The gate of an atomic, a reduction or `atom.cas`: what it returns needs room in the LDQ. -/
def atomFormGate (op size : Nat) (d b sc : BitVec 5) (o : BitVec 3) (n : Nat) (s : State) : Gate :=
  (atomGate (s.ea b) op size sc o true s).and (ldqGate d n s)

/-- The gate of a full/empty form on its own. -/
def feFormGate (blocking returning : Bool) (op : Nat → UnitOp) (d b x sc : BitVec 5) (o : BitVec 3) (s : State) : Gate :=
  let ea := s.eaX b x
  let w := feWord ea s
  (feGate ea sc o blocking returning d s).and (gateIf (blocking && !s.frame.joint) (unitGate w.1 [op w.2] s))

/-- The gate of an A form. -/
def addressGate (i : Instr) (s : State) : Gate :=
  match i with
  | .ldb d b x _ y sc o | .ldbn d b x _ y sc o => loadGate 1 d b x y sc o s
  | .ldh d b x _ y sc o | .ldhn d b x _ y sc o => loadGate 2 d b x y sc o s
  | .ldw d b x _ y sc o | .ldwn d b x _ y sc o => loadGate 4 d b x y sc o s
  | .ldd d b x _ y sc o => loadGate 8 d b x y sc o s
  | .stb _ b x _ sc o => storeGate 1 b x sc o s
  | .sth _ b x _ sc o => storeGate 2 b x sc o s
  | .stw _ b x _ sc o => storeGate 4 b x sc o s
  | .std _ b x _ sc o => storeGate 8 b x sc o s
  | .ldfull d b x sc o => feFormGate true true .ldfull d b x sc o s
  | .ldtake d b x sc o => feFormGate true true .ldtake d b x sc o s
  | .stfill d b x sc o => feFormGate true false (fun w => .stfill w (s.srcW d)) d b x sc o s
  | .stforce d b x sc o => feFormGate false false (fun w => .stforce w (s.srcW d)) d b x sc o s
  | .fetag d b x => feFormGate false true .fetag d b x 0 0 s
  | .feset d b x => feFormGate false false (fun w => .feset w ((s.srcS d).getLsbD 0)) d b x 0 0 s
  | .atomAdd d b _ z sc o => atomFormGate opAdd (sizeOf_ z) d b sc o 1 s
  | .atomAnd d b _ z sc o => atomFormGate opAnd (sizeOf_ z) d b sc o 1 s
  | .atomOr d b _ z sc o => atomFormGate opOr (sizeOf_ z) d b sc o 1 s
  | .atomXor d b _ z sc o => atomFormGate opXor (sizeOf_ z) d b sc o 1 s
  | .atomMin d b _ z sc o => atomFormGate opMin (sizeOf_ z) d b sc o 1 s
  | .atomMax d b _ z sc o => atomFormGate opMax (sizeOf_ z) d b sc o 1 s
  | .atomMinn d b _ z sc o => atomFormGate opMinn (sizeOf_ z) d b sc o 1 s
  | .atomMaxn d b _ z sc o => atomFormGate opMaxn (sizeOf_ z) d b sc o 1 s
  | .atomSwap d b _ z sc o => atomFormGate opSwap (sizeOf_ z) d b sc o 1 s
  | .atomCas d b _ z sc o => atomFormGate opCas (sizeOf_ z) d b sc o (if z = 2 then 2 else 1) s
  | .atomFadd d b _ sc o => atomFormGate opFadd 4 d b sc o 1 s
  | .atomFmin d b _ sc o => atomFormGate opFmin 4 d b sc o 1 s
  | .atomFmax d b _ sc o => atomFormGate opFmax 4 d b sc o 1 s
  | .redAdd b _ z sc o => atomGate (s.ea b) opAdd (sizeOf_ z) sc o false s
  | .redAnd b _ z sc o => atomGate (s.ea b) opAnd (sizeOf_ z) sc o false s
  | .redOr b _ z sc o => atomGate (s.ea b) opOr (sizeOf_ z) sc o false s
  | .redXor b _ z sc o => atomGate (s.ea b) opXor (sizeOf_ z) sc o false s
  | .redMin b _ z sc o => atomGate (s.ea b) opMin (sizeOf_ z) sc o false s
  | .redMax b _ z sc o => atomGate (s.ea b) opMax (sizeOf_ z) sc o false s
  | .redMinn b _ z sc o => atomGate (s.ea b) opMinn (sizeOf_ z) sc o false s
  | .redMaxn b _ z sc o => atomGate (s.ea b) opMaxn (sizeOf_ z) sc o false s
  | .redFadd b _ sc o => atomGate (s.ea b) opFadd 4 sc o false s
  | .redFmin b _ sc o => atomGate (s.ea b) opFmin 4 sc o false s
  | .redFmax b _ sc o => atomGate (s.ea b) opFmax 4 sc o false s
  | .fenceAcq sc => fenceGate sc false s
  | .fenceRel sc => fenceGate sc true s
  | .fenceAr sc => fenceGate sc true s
  | .tktTake d b sc o => (tktGate (s.ea b) sc o s).and (ldqGate d 1 s)
  | .tktServe b sc o => tktGate (s.ea b) sc o s
  | .tktWait b x sc o => tktWaitGate b x sc o s
  | .barArrive l n sc o => barGate l n sc o s
  | .barWait l n sc o => barWaitGate l n sc o s
  | .sbind k n b _ t => sbindGate k n b t s
  | .sstop k n x | .srewind k n x => stopGate k n x s
  | .cbinit k b _ t => cbinitGate k b t s
  | .cbadv sd k x => cbadvGate sd k x s
  | _ => .go

/-- The gate of an E form: bytes of the block it reads as it is accepted, and whether it names a scope. -/
def engineGate (i : Instr) (s : State) : Gate :=
  match i with
  | .copy d _ n sc _ | .copyx d _ n sc _ | .ltxCommit d _ n sc | .ltxAbort d _ n sc | .gather d n sc | .scatter d n sc
  | .coll d n sc | .mldr d n sc | .mred d n sc | .route d n sc | .ltxOpen d n sc | .aeMap d n sc
  | .aeMapMatrices d n sc | .aeMapUnmap d n sc | .aeGate d n sc | .aeSwap d n sc | .aeNorm d n sc | .aeProj d n sc =>
    engGate (descOf d s) 16 n sc true s
  | .tload d n | .tseal d n | .imload d n | .smload d _ n | .tready d _ n | .cancel d _ n =>
    engGate (descOf d s) 16 n 0 false s
  | .trig d n => trigGate (descOf d s) n s
  | _ => .go

/-- The gate of an X form. -/
def selectGate (i : Instr) (s : State) : Gate :=
  match i with
  | .cload g a b c _ | .ctag g a b c => Gate.pick [regsGate [a, b] s, colMarkGate g [a, b] s, colGate [c.toNat] s]
  | .cstore _ a b c _ => Gate.pick [regsGate [a, b] s, colGate [c.toNat] s]
  | .cx g c _ _ _ | .cclr g c => colGate (colRange c g) s
  | .rngseed g a => Gate.pick [regsGate [a] s, colMarkGate g [a] s]
  | _ => .go

/-- The gate of an S form. -/
def controlGate (i : Instr) (s : State) : Gate :=
  match i with
  | .loop _ _ f => loopGate f s
  | .loopm _ a b f => loopmGate a b f s
  | .dispatch _ _ _ => dispatchGate s
  | .yield | .yieldPark | .exit => leaveGate s
  | .trap _ => .trap cSwTrap
  | .waitt _ a n => waittGate a n s
  | .scopeSet n a => scopeSetGate n a s
  | .scopeLoad n => scopeLoadGate n s
  | .sluice => gateIf (!sluicePassed s) (.block .sluice)
  | _ => .go

/-- The gate of the form at a position of the bundle whose frame is open. -/
def formGate (f : Pos × Instr) (s : State) : Gate :=
  match f.1 with
  | .lg _ => entryGate f.2 (s.at f.1)
  | .a => addressGate f.2 (s.at f.1)
  | .e => engineGate f.2 (s.at f.1)
  | .x => selectGate f.2 (s.at f.1)
  | _ => controlGate f.2 (s.at f.1)

/-- R25, R147: the gate of popping a latch in a group. -/
def popGate (s : State) (key : Nat) : Gate :=
  let f := s.frame
  match f.old.latches.find key with
  | none => .go
  | some b =>
    if b.desc.entries ≤ b.pos then .trap cStream
    else
      match f.was.latchHead f.old key with
      | none => .block .latch
      | some e => gateIf (e.fault != 0) (.trap e.fault)

/-- R25, R214: the gate of the header's pops of latches and of the RBQ. -/
def headerGate (s : State) : Gate :=
  let h := s.frame.hdr
  Gate.pick (((List.range 8).filter (hdrPopq h)).flatMap (fun k => (List.range 8).map (fun g => popGate s (8 * g + k))) ++
    [rbqGate s (hdrPopr h)])

-- joint requests at the atomic unit (R174)

/-- The operations that the A form asks of the own core's unit. -/
def jointAddress (i : Instr) (s : State) : List UnitOp :=
  let own (ea : Nat) (op : Nat → UnitOp) : List UnitOp :=
    match spadOf (s.targetOf ea .both) with
    | some (c, o) => if c = s.frame.core then [op o] else []
    | none => []
  let rmw (b : BitVec 5) (size op v cmp : Nat) : List UnitOp :=
    own (s.ea b) (fun o => .rmw o size op (BitVec.ofNat 64 v) (BitVec.ofNat 64 cmp))
  let v (x : BitVec 5) : Nat := (s.srcS x).toNat
  match i with
  | .ldfull _ b x _ _ => own (s.eaX b x) (fun o => .ldfull (o / 4))
  | .ldtake _ b x _ _ => own (s.eaX b x) (fun o => .ldtake (o / 4))
  | .stfill d b x _ _ => own (s.eaX b x) (fun o => .stfill (o / 4) (s.srcW d))
  | .stforce d b x _ _ => own (s.eaX b x) (fun o => .stforce (o / 4) (s.srcW d))
  | .fetag _ b x => own (s.eaX b x) (fun o => .fetag (o / 4))
  | .feset d b x => own (s.eaX b x) (fun o => .feset (o / 4) ((s.srcS d).getLsbD 0))
  | .atomAdd _ b x z _ _ | .redAdd b x z _ _ => rmw b (sizeOf_ z) opAdd (v x) 0
  | .atomAnd _ b x z _ _ | .redAnd b x z _ _ => rmw b (sizeOf_ z) opAnd (v x) 0
  | .atomOr _ b x z _ _ | .redOr b x z _ _ => rmw b (sizeOf_ z) opOr (v x) 0
  | .atomXor _ b x z _ _ | .redXor b x z _ _ => rmw b (sizeOf_ z) opXor (v x) 0
  | .atomMin _ b x z _ _ | .redMin b x z _ _ => rmw b (sizeOf_ z) opMin (v x) 0
  | .atomMax _ b x z _ _ | .redMax b x z _ _ => rmw b (sizeOf_ z) opMax (v x) 0
  | .atomMinn _ b x z _ _ | .redMinn b x z _ _ => rmw b (sizeOf_ z) opMinn (v x) 0
  | .atomMaxn _ b x z _ _ | .redMaxn b x z _ _ => rmw b (sizeOf_ z) opMaxn (v x) 0
  | .atomSwap _ b x z _ _ => rmw b (sizeOf_ z) opSwap (v x) 0
  | .atomCas _ b x z _ _ => rmw b (sizeOf_ z) opCas (casNew x z s) (casCmp x z s)
  | .atomFadd _ b x _ _ | .redFadd b x _ _ => rmw b 4 opFadd (v x) 0
  | .atomFmin _ b x _ _ | .redFmin b x _ _ => rmw b 4 opFmin (v x) 0
  | .atomFmax _ b x _ _ | .redFmax b x _ _ => rmw b 4 opFmax (v x) 0
  | _ => []

/-- The operations that an entry asks of the unit. -/
def jointEntry (i : Instr) (s : State) : List UnitOp :=
  match i with
  | .spldFull e => (fullOps s e).map (·.2)
  | .spstEmpty e => (emptyOps s e).map (·.2)
  | .spatomAdd e => (addOps s e).map (·.2)
  | _ => []

/-- R174: the single request of a bundle whose groups ask the unit: A slot, then LG0 to LG7. -/
def jointOps (s : State) (b : Bundle) : List UnitOp :=
  (match (if emptyAt b .a then none else formAt b .a) with | some i => jointAddress i (s.at .a) | none => []) ++
  (bundleGroups s s.frame.core b).flatMap (fun f => jointEntry f.2 (s.at f.1))

/-- R174: the joint request of a bundle cannot be served now. -/
def jointWaits (s : State) (b : Bundle) : Bool :=
  s.frame.joint && (unitGate s.frame.core (jointOps s b) s).kind == 3

end Sys2Proof.Machine
end

