-- ==== Sys2Proof/Machine/Issue.lean ====
section
/-!
DEFINITION. Issue: the selector (R38, R39), the checks of a bundle in the order of R85 and R335, forced checkpoints (R35) and
those around committing bundles (R32, R33), what the end of a bundle does (pops, back-edges and branches: R25, R28, R29, R59,
R114), what the end of a cycle does (R20, R22, R32, R210, R214), the G forms (R16), and how the forms of a bundle are
performed one after another.
-/

namespace Sys2Proof.Machine

-- limits of a region (R35)

/-- Vector registers or tiles of a group that a list of keys holds, keyed `n` to a group. -/
def inGroup (n g : Nat) (l : List Nat) : Nat := (l.filter (fun k => k / n == g)).length

/-- Registers of group `g` in the shadow pool that no snapshot holds (Table 1.1). -/
def freeRegs (c : Core) (g : Nat) : Nat :=
  Config.physVregs - ((residents c).map (fun k => k.2.win.vregs + inGroup 64 g k.2.shadowV)).sum

/-- Tiles of group `g` in the shadow pool that no snapshot holds. -/
def freeTiles (c : Core) (g : Nat) : Nat :=
  Config.physTiles - ((residents c).map (fun k => k.2.win.tiles + inGroup 8 g k.2.shadowT)).sum

/-- Vector registers that a bundle writes, keyed 64 g + i: its own entries', its neighbours' arrivals, `cstore`'s. -/
def bundleVregs (s : State) (ck : Nat) (b : Bundle) : List Nat :=
  ((bundleGroups s ck b).flatMap (fun f => match f.1 with
    | .lg g => (writesOf f.2).vregs.map (fun v => 64 * g + v) ++
        (match sendsTo g f.2 with | some (t, v) => [64 * t + v] | none => [])
    | _ => [])) ++
  (match formAt b .x with
   | some i => (match colWrites i with | some (g, l) => l.map (fun v => 64 * g + v) | none => [])
   | none => [])

/-- Tiles that a bundle writes, keyed 8 g + t. -/
def bundleTiles (s : State) (ck : Nat) (b : Bundle) : List Nat :=
  (bundleGroups s ck b).flatMap (fun f => match f.1 with
    | .lg g => (tilesWritten f.2).map (fun t => 8 * g + t)
    | _ => [])

/-- R35: groups whose shadow pool has too little room for what a bundle writes first in its region. -/
def shortGroups (s : State) (ck x : Nat) (b : Bundle) : List Nat :=
  let c := s.core ck
  let k := c.ctx x
  let newV := ((bundleVregs s ck b).eraseDups).filter (fun v => !k.shadowV.contains v)
  let newT := ((bundleTiles s ck b).eraseDups).filter (fun t => !k.shadowT.contains t)
  (List.range 8).filter (fun g => decide (freeRegs c g < inGroup 64 g newV) || decide (freeTiles c g < inGroup 8 g newT))

/-- R31: entries of the withholding buffer that the stores of a bundle take; a release takes one of its own. -/
def storeNeed (s : State) (b : Bundle) : Nat :=
  let f := s.frame
  let plain (base x : BitVec 5) (o : BitVec 3) : Nat :=
    match reach (s.at .a) f.core f.ctx ((s.at .a).eaX base x) .write with
      | .ok t =>
        if ownSpad f.core t.place then 0
        else if o != 0 then 1
        else (withhold (mkStore s.me f.core f.ctx t [0]) (s.core f.core).wbuf).length - (s.core f.core).wbuf.length
      | _ => 0
  (match (if emptyAt b .a then none else formAt b .a) with
   | some (.stb _ base x _ _ o) => plain base x o
   | some (.sth _ base x _ _ o) => plain base x o
   | some (.stw _ base x _ _ o) => plain base x o
   | some (.std _ base x _ _ o) => plain base x o
   | _ => 0) +
  (match formAt b .s0 with
   | some (.scopeSet n _) => (blockPieces (scopeCopyAt s n.toNat) 160).length
   | some (.scopeLoad n) => (blockPieces (scopeCopyAt s n.toNat) 160).length
   | _ => 0)

/-- R35: a latch of which a bundle would pop an entry more than a region retains. -/
def latchFull (c : Ctx) (h : BitVec 32) : Bool :=
  (List.range 8).any (fun k => hdrPopq h k && (List.range 8).any (fun g =>
    (c.arch.latches.find (8 * g + k)).isSome && decide (Config.latchEntries ≤ c.latchPops.get (8 * g + k) 0)))

/-- R35: an output queue that a bundle would push and whose 32 entries the region holds. -/
def outputFull (s : State) (ck x : Nat) (b : Bundle) : Bool :=
  let c := s.ctx ck x
  (bundleGroups s ck b).any (fun f => match f.1 with
    | .lg g => (writesOf f.2).outs.any (fun k =>
        decide (Config.queueEntries ≤ (c.arch.held.filter (fun h => h.group == g && h.queue == k)).length))
    | _ => false)

/-- R35: a bundle would exceed a limit of its region. -/
def overLimit (s : State) (ck x : Nat) (b : Bundle) : Bool :=
  let c := s.ctx ck x
  let h := hdrOf b
  decide (Config.storeEntries < (s.core ck).wbuf.length + storeNeed s b) || latchFull c h ||
  (hdrPopr h && decide (Config.rbqRetained ≤ c.rbqPops)) || (hdrPopl h && decide (Config.ldqEntries ≤ c.ldqPops)) ||
  outputFull s ck x b || !(shortGroups s ck x b).isEmpty

/-- R35: other contexts that hold shadows in the groups that lack room, or withheld stores where the buffer is full. -/
def othersInWay (s : State) (ck x : Nat) (b : Bundle) : List Nat :=
  let short := shortGroups s ck x b
  let full := decide (Config.storeEntries < (s.core ck).wbuf.length + storeNeed s b)
  ((residents (s.core ck)).filter (fun k => k.1 != x &&
    (k.2.shadowV.any (fun v => short.contains (v / 64)) || k.2.shadowT.any (fun t => short.contains (t / 8)) ||
     (full && (s.core ck).wbuf.any (fun st => st.ctx == k.1))))).map (·.1)

-- checkpoints that are owed

/-- R33: every committing operation of a context's last bundle has been accepted, its values have been written. -/
def accepted (c : Ctx) : Bool := c.loads.all (fun l => !l.commit) && c.relWait.isNone

/-- R33: the checkpoint that a context owes is the one after a committing bundle. -/
def Ctx.inCommit (c : Ctx) : Bool := c.ckOwed == 3 || c.ckOwed == 4

/-- R32 to R35, R134: a checkpoint owed after a bundle, or forced by another context's, is taken, if it can be. -/
def takeOwed (s : State) (ck x : Nat) : State :=
  let c := s.ctx ck x
  if c.ckOwed = 0 || !drained s ck x || (c.inCommit && !accepted c) then s
  else if c.ckOwed = 5 then forcedCheckpoint s ck x
  else if c.ckOwed = 2 ∨ c.ckOwed = 4 then refetch (checkpoint (performAllLoads s ck x) ck x) ck x
  else checkpoint s ck x

/-- R338: a pre-emption that had to wait for a committing bundle takes its context. -/
def takePreempt (s : State) (ck x : Nat) : State :=
  let c := s.ctx ck x
  if c.preempt && c.resident && !c.inCommit && c.served.isNone && c.status != .resting then
    preemptCtx (noteParties s ck x) ck x
  else s

/-- CHECKPOINT (R32): an owed checkpoint of a context. -/
def execCheckpoint (s : State) : Out := .next (takePreempt (takeOwed s s.ev.core s.ev.ctx) s.ev.core s.ev.ctx)

/-- R35: a checkpoint is forced on another context: the one it owes, or one that counts as forced; it is taken at once where it can
be, and else before the context issues again. -/
def forceOther (s : State) (ck x : Nat) : State :=
  takeOwed (s.modCtx ck x (fun c => { c with ckOwed := if c.ckOwed = 0 then 5 else c.ckOwed })) ck x

-- what issue finds

/-- The bundle at a context's PC. -/
def fetch (s : State) (ck x : Nat) : Option ImWord := imAt s ck x (s.ctx ck x).arch.pc

/-- R359: the entry of some group under the index that a bundle selects is marked uncorrectable. -/
def indexPoisoned (s : State) (ck : Nat) (b : Bundle) : Bool :=
  match bcastOf b with
  | some (i, _, _) => (match (s.core ck).front.find i with | some ix => !ix.poison.isEmpty | none => false)
  | none => false

/-- R116, R111: faults of an executing bundle that raise ILLEGAL_BUNDLE. -/
def illegalDynamic (s : State) (b : Bundle) : Bool :=
  match formAt b .s0 with
  | some (.loop _ _ f) => loopGate f s != .go
  | some (.loopm _ _ _ f) => loopGate f s != .go
  | some (.dispatch _ _ _) => dispatchGate (s.at .s0) != .go
  | _ => false

/-- R85: the first check that fails, 0 for none; `s` has the bundle's frame open. A pool position holds no bundle (R70) and names
no index. -/
def issueCause (s : State) (ck x : Nat) (w : ImWord) (ex : Bool) : Nat :=
  if w.poisoned || (!w.pool && indexPoisoned s ck w.bits) then cImem
  else if w.pool then cPool
  else if illegalStatic s ck x w.bits || (ex && illegalDynamic s w.bits) then cIllegal
  else if ex && bundleResource s ck x w.bits then cResource
  else if ex && bundleSchedule s ck x w.bits then cSchedule
  else 0

/-- The parts of a bundle that have gates, in the order of R335: a form with its position, marks of registers that it reads (R359), the
header's pops, or marks of registers that its back-edge reads. -/
def bundleParts (s : State) (ck : Nat) (b : Bundle) : List (Gate × Option (Pos × Instr)) :=
  let forms := coreForms b
  let early := forms.filter (fun f => f.1 == .s0 || f.1 == .s1 || f.1 == .a)
  let late := forms.filter (fun f => f.1 == .e || f.1 == .x)
  ((early ++ bundleGroups s ck b ++ late).flatMap (fun f => [(formGate f s, some f), (heldMarks s f, none)])) ++
    [(headerGate s, none), (strideMarks s forms, none)]

/-- R174: a `tkt.wait` beside a request of the groups is presented only after that has been served. -/
def afterJoint (s : State) (p : Gate × Option (Pos × Instr)) : Bool :=
  s.frame.joint && s.me.served.isNone && p.1.kind == 3 &&
  (match p.2 with | some (_, .tktWait _ _ _ _) => true | _ => false)

/-- R38: a bundle would block now: its checks pass and a wait of one of its forms is all that holds it back. -/
def bundleBlocks (s0 : State) (ck x : Nat) : Bool :=
  match fetch s0 ck x with
  | none => false
  | some w =>
    let s := openFrame s0 ck x w.bits
    if !executes (hdrOf w.bits) s.frame.old || issueCause s ck x w true != 0 || operandStall s ck x w.bits ||
        overLimit s ck x w.bits then false
    else
      let g := Gate.pick (((bundleParts s ck w.bits).filter (fun p => !afterJoint s p)).map (·.1))
      g.kind == 3 || (g == .go && jointWaits s w.bits)

-- the selector

/-- R38, R39: a context is ready: it may issue, or what it was blocked on has come. A context in bubbles, or one that a drain or
a checkpoint holds, keeps the slot; one that waits for a common edge (R233, R235) is not ready. -/
def isReady (s : State) (ck x : Nat) : Bool :=
  let c := s.ctx ck x
  match c.status with
  | .ready => decide (s.edgeOf ck c ≤ (s.core ck).pulse)
  | .blocked _ => c.deferred != 0 || !bundleBlocks s ck x
  | _ => false

/-- R39: contexts that may have the issue slot: ready and of the highest priority. -/
def candidates (s : State) (ck : Nat) : List Nat :=
  let ready := (List.range 4).filter (isReady s ck)
  let top := ready.foldl (fun m x => max m (s.ctx ck x).prio) 0
  ready.filter (fun x => (s.ctx ck x).prio == top)

/-- R39: the context that has the issue slot in this cycle, and the cycles it then has held it. A turn among equals goes on from the
number after the context that held the slot last, also where that one was of another priority (DESIGN CHOICE, log entry 103). -/
def select (s : State) (ck : Nat) : Option (Nat × Nat) :=
  let c := s.core ck
  let l := candidates s ck
  if l.contains c.selCtx && decide (c.selHeld < Config.holdCycles) then some (c.selCtx, c.selHeld + 1)
  else (((List.range 4).map (fun i => (c.selCtx + 1 + i) % 4)).find? (fun x => l.contains x)).map (fun x => (x, 1))

/-- SELECTOR_ROTATION (R39): the context that issues next has the slot. -/
def execSelectorRotation (s : State) : Out :=
  let ck := s.ev.core
  match select s ck with
  | none => .next s
  | some (x, n) => .next (s.modCore ck (fun c => { c with selCtx := x, selHeld := if x = c.selCtx then c.selHeld else n - 1 }))

-- the end of a cycle

/-- R20, R40: results of a core that are due by a cycle land; the lanes that they write lose their marks (R359). -/
def landCore (cycle : Nat) (c : Core) : Core :=
  let hit (x : Nat) (k : Ctx) : List (Nat × LaneMask) := (k.inflight.filter (fun p => p.due ≤ cycle)).filterMap (fun p =>
    match p.dest with
    | .vreg i => some (1024 * x + 64 * p.group + i, p.lanes)
    | .mask k => some (maskMark x p.group k, BitVec.allOnes 32)
    | .greg k => some (gregMark x p.group k, BitVec.allOnes 32)
    | _ => none)
  let marks := if c.regUE.isEmpty then [] else c.ctxs.flatMap (fun k => hit k.1 k.2)
  marks.foldl (fun c m => c.cleanReg m.1 m.2)
    { c with ctxs := c.ctxs.map (fun k => (k.1, if k.2.inflight.isEmpty then k.2 else landDue cycle k.2)) }

/-- R20 to R23, R210, R214: what the lane groups, the matrix units and the column select unit of a core do by the end of a cycle. -/
def unitsCycle (count cycle : Nat) (c : Core) : Core :=
  let c1 := landCore cycle c
  let c2 := c1.mma.foldl (fun k g => beatsDone g.1 cycle (beatGroup g.1 cycle k)) c1
  fillSlot count (if c2.colOps.isEmpty then c2 else stageCore cycle c2)

/-- R10, R362: an arithmetic cycle of a core ends: results land, units advance, a handed-over store goes on to the die, and owed
checkpoints are taken. -/
def endCycle (s : State) (ck : Nat) : State :=
  let t := (s.core ck).cycle
  let s1 := drainStore (s.modCore ck (unitsCycle (cycleCount s ck) t)) ck
  let s2 := ({ s1.modCore ck (fun c =>
      { c with cycle := t + 1
               mxuBusy := c.mxuBusy.filter (fun b => decide (t + 1 < b.2))
               busy := c.busy.filter (fun b => decide (t + 1 < b.2)) }) with
      tick := max s.tick (2 * ((s.core ck).pulse + 1)) } : State).throttled ck
  sluiceReport (((residents (s2.core ck)).map (·.1)).foldl (fun s x => takePreempt (takeOwed s ck x) ck x) s2) ck

/-- RESULT_WRITE (R20): results of a core that are due before the cycle it issues next have landed. -/
def execResultWrite (s : State) : Out :=
  .next (s.modCore s.ev.core (fun c => if c.cycle = 0 then c else landCore (c.cycle - 1) c))

-- the end of a bundle

/-- R29: an ended level whose body lies inside another's is running again with its count. -/
def rewindLevel (first last : Nat) (l : Loop) : Loop :=
  if !l.run && l.remain != 0 && decide (first ≤ l.first) && decide (l.last ≤ last) then
    { l with run := true, remain := l.remain + l.iter, iter := 0 }
  else l

/-- R114: a stride is added to a register; to one that waits for a load, as its value arrives. The sum is usable by the next bundle,
also where a multiply or divide result was not (log entry 29). -/
def Arch.addStride (a : Arch) (r : Nat) (v : Word) : Arch :=
  if (a.sWait.find r).isSome then { a with sAdd := a.sAdd.set r (a.sAdd.get r 0 + v) } else a.writeS r (a.readS r + v)

/-- R114: the stride set of a level is added to its registers. -/
def addStrides (l : Loop) (a : Arch) : Arch := l.strides.foldl (fun a e => a.addStride e.2.1 e.2.2) a

/-- R114: the back-edge of level `n` of a bundle, if it has one: the new registers and the next PC. -/
def backEdgeAt (n this : Nat) (a : Arch) : Option (Arch × Nat × Bool) :=
  let l := a.loops.get n {}
  if !l.run || l.last != this then none
  else if 1 < l.remain then
    let l' := { l with remain := l.remain - 1, iter := l.iter + 1 }
    let loops := (a.loops.set n l').map (fun p => if p.1 = n then p else (p.1, rewindLevel l.first this p.2))
    some (addStrides l { a with loops := loops }, l.first, true)
  else some ({ a with loops := a.loops.set n { l with run := false } }, this + 1, false)

/-- R114: levels from n − 1 down to 0. -/
def backEdges : Nat → Nat → Arch → Arch × Nat × Bool
  | 0, this, a => (a, this + 1, false)
  | n + 1, this, a =>
    match backEdgeAt n this a with
    | none => backEdges n this a
    | some (a', pc, true) => (a', pc, true)
    | some (a', _, false) => backEdges n this a'

/-- R29: bundles of bodies that the loop buffer holds, newest first, as far as they fit. Bodies that share bundles, an inner one inside
an outer one, count each in full, so that together above 256 bundles the older goes (DESIGN CHOICE, log entry 128). -/
def trimBuffer : Nat → List (Nat × Nat × Nat) → List (Nat × Nat × Nat)
  | _, [] => []
  | room, l :: t =>
    let n := l.2.2 + 1 - l.2.1
    if n ≤ room then l :: trimBuffer (room - n) t else []

/-- R29: a body is taken at its first iteration, or again when it is fetched after an eviction; whether its back-edge now costs no
cycles. IM positions are kept by their numbers in IM. -/
def bufferBody (c : Core) (x base first last iter : Nat) : Core × Bool :=
  let me := (x, base + first, base + last)
  let fits := decide (last + 1 - first ≤ Config.loopBuffer)
  if !fits then (c, false)
  else ({ c with lbuf := trimBuffer Config.loopBuffer (me :: c.lbuf.filter (· != me)) }, iter == 1 || c.lbuf.contains me)

/-- R28, R29, R114: where a context goes on after a bundle at `this`: a taken branch, a back-edge, or the next bundle. -/
def nextPc (s : State) (ck x this : Nat) (target : Option Nat) (dr : Bool) : State :=
  let t := (s.core ck).cycle
  match target with
  | some p => s.modCtx ck x (fun c => { c with arch := { c.arch with pc := p }, issueAt := t + 3, drain := dr })
  | none =>
    let c := s.ctx ck x
    let r := backEdges 6 this c.arch
    let s1 := s.setCtx ck x { c with arch := { r.1 with pc := r.2.1 } }
    if r.2.2 then
      let iter := ((List.range 6).map (fun n => r.1.loops.get n {})).find? (fun l => l.run && l.first == r.2.1 && l.last == this)
      let b := bufferBody (s1.core ck) x ((s1.core ck).bases.get c.launch 0) r.2.1 this
        (match iter with | some l => l.iter | none => 0)
      let s2 := s1.setCore ck b.1
      if b.2 then s2 else s2.modCtx ck x (fun c => { c with issueAt := t + 3 })
    else s1

/-- R25: a latch is popped in a group where it is bound. -/
def popLatch (c : Ctx) (key : Nat) : Ctx :=
  match c.arch.latches.find key with
  | none => c
  | some b => { c with arch := { c.arch with latches := c.arch.latches.set key { b with pos := b.pos + 1 } }
                       latchPops := c.latchPops.set key (c.latchPops.get key 0 + 1) }

/-- R15, R25, R59: the pops of the header at the end of a bundle. A binding made in the bundle is not popped. -/
def headerPops (h : BitVec 32) (old : Arch) (c : Ctx) : Ctx :=
  let keys := ((List.range 8).filter (hdrPopq h)).flatMap (fun k => (List.range 8).map (fun g => 8 * g + k))
  let c1 := (keys.filter (fun k => (old.latches.find k).isSome && c.arch.latches.find k == old.latches.find k)).foldl popLatch c
  let c2 := if hdrPopl h then
      { c1 with arch := { c1.arch with ldq := c1.arch.ldq.drop 1 }, ldqPops := c1.ldqPops + 1 } else c1
  if hdrPopr h then
    { c2 with arch := { c2.arch with rbq := if c2.arch.rbq == old.rbq then c2.arch.rbq.drop 1 else c2.arch.rbq }
              rbqPops := c2.rbqPops + 1 }
  else c2

/-- The checkpoint that a bundle owes (R32, R33, R134). -/
def owedAfter (owed : Nat) (commit ck : Bool) : Nat :=
  if commit then (if owed = 2 then 4 else 3) else if ck then max owed 1 else owed

/-- A bundle that has been performed ends: its pops, its checkpoint, where its context goes on; then its cycle. -/
def closeBundle (s : State) (commit : Bool) : State :=
  let f := s.frame
  let s0 := if f.clear then { s.countCore f.core 0x40 with frame := {} } else { s with frame := {} }
  if f.gone then endCycle s0 f.core
  else
    let s1 := (s0.modCore f.core (fun k => { k with spadOld := k.spadOld.filter (fun p => p.1 != f.ctx) })).modCtx f.core f.ctx (fun c =>
      let c' := headerPops f.hdr f.old c
      { c' with served := none, servedUE := false, ckMade := false, ckOwed := owedAfter c'.ckOwed commit (hdrCk f.hdr) })
    endCycle (nextPc s1 f.core f.ctx f.pc f.target (hdrDr f.hdr)) f.core

-- an attempt to issue

/-- R30: a bundle that does not execute takes its cycle; its CK bit counts, and the back-edge of R114. -/
def passBundle (s : State) (ck x : Nat) (b : Bundle) : State :=
  let this := (s.ctx ck x).arch.pc
  let s1 := s.modCtx ck x (fun c => { c with status := .ready, ckOwed := owedAfter c.ckOwed false (hdrCk (hdrOf b)) })
  endCycle (nextPc (s1.countCore ck 0x40) ck x this none false) ck

/-- R35: forced checkpoints before a bundle: its own context's first, once; then those of other contexts that leave it too little
room. True when the bundle has the room it needs. -/
def makeRoom (s : State) (ck x : Nat) (b : Bundle) : State × Bool :=
  if !overLimit s ck x b then (s, true)
  else if !drained s ck x then (s, false)
  else
    let own := if (s.ctx ck x).ckMade then s
      else (forcedCheckpoint s ck x).modCtx ck x (fun c => { c with ckMade := true })
    let s1 := openFrame own ck x b
    let s2 := openFrame ((othersInWay s1 ck x b).foldl (fun s o => forceOther s ck o) s1) ck x b
    (s2, (othersInWay s2 ck x b).isEmpty)

/-- R33: the checkpoint immediately before a committing bundle. -/
def commitBefore_ (s : State) (ck x : Nat) (b : Bundle) : Option State :=
  if !bundleCommits s ck b then some s
  else if !drained s ck x then none
  else some (openFrame (checkpoint s ck x) ck x b)

/-- The forms of a bundle in the order in which they are performed: S1, A, the G form, which brings its entries, E, X, and S0
last, since it may end the context. Of two puts to one special register, S0's value stays (DESIGN CHOICE, log entry 104). -/
def performOrder (b : Bundle) : List (Pos × Instr) :=
  [Pos.s1, .a, .g, .e, .x, .s0].filterMap (fun p => if emptyAt b p then none else (formAt b p).map (fun i => (p, i)))

/-- R174: the unit serves the joint request of a bundle before its `tkt.wait` is presented. -/
def serveJoint (s : State) (ck x : Nat) (b : Bundle) : State :=
  let ops := jointOps s b
  match unitRun (s.core ck) ops with
  | some (c, ws) => keepAnswer s ck { c with unitQ := c.unitQ.filter (fun q => !(q.core == ck && q.ctx == x)) } ck x ops ws
  | none => s

/-- R359: scalar registers that the forms of a bundle write lose their marks. -/
def clearScalars (b : Bundle) (x : Nat) (c : Core) : Core :=
  let ds := (coreForms b).flatMap (fun f => (dstRegs f.2).map (fun r => scalarMark x r.toNat))
  if c.regUE.isEmpty then c else { c with regUE := c.regUE.filter (fun m => !ds.contains m.1) }

/-- R174, R335, R338: an executing bundle that has passed the checks of R85 and whose operands are there: it goes on, or its first
part that is not open stops it. A `sluice` bundle that waited is attempted again whole, so that after the swap its own G slot is checked
against the new front bank (DESIGN CHOICE, log entry 133). -/
def startBundle (s : State) (ck x : Nat) (b : Bundle) : State :=
  let parts := bundleParts s ck b
  let early := parts.filter (fun p => !afterJoint s p)
  let g := Gate.pick (early.map (·.1))
  match g, early.find? (fun p => p.1 == g) with
  | .go, _ =>
    if jointWaits s b then
      enqueueUnit ck { core := ck, ctx := x, joint := true, ops := jointOps s b } (s.blockFrame .fullEmpty)
    else
      match parts.find? (afterJoint s) with
      | some (_, some f) => let s1 := serveJoint s ck x b; { s1 with frame := { s1.frame with todo := [f] } }
      | _ =>
        let s1 := (s.modCtx ck x (fun c => { c with status := .ready })).modCore ck (clearScalars b x)
        { s1 with frame := { s1.frame with todo := performOrder b, clear := true } }
  | _, some (_, some f) => { s with frame := { s.frame with todo := [f] } }
  | g, _ =>
    match behind g s id with
    | .next t => t
    | _ => s

/-- R85, R15, R35, R33: the bundle of a context that has the issue slot, its frame open, comes to issue. -/
def issueBundle (s : State) (ck x : Nat) (w : ImWord) : State :=
  let b := w.bits
  let ex := executes (hdrOf b) s.frame.old
  let cause := issueCause s ck x w ex
  let none_ := { s with frame := {} }
  if cause != 0 then
    let s1 := if w.poisoned then s.countCore ck 0x10 else s
    { s1.trapFrame cause with frame := { s.frame with gone := true } }
  else if !ex then
    (match strideMarks s [] with
     | .trap c => { s.trapFrame c with frame := { s.frame with gone := true } }
     | _ => passBundle none_ ck x b)
  else if operandStall s ck x b then endCycle none_ ck
  else
    let r := makeRoom s ck x b
    if !r.2 then endCycle { r.1 with frame := {} } ck
    else
      match commitBefore_ r.1 ck x b with
      | none => endCycle { r.1 with frame := {} } ck
      | some s2 => startBundle s2 ck x b

/-- A context that has the issue slot: bubbles, owed checkpoints and drains first; then a deferred cause (R335); then its
bundle. A PC outside the image raises POOL_EXECUTE, whatever the mark of an IM position there (DESIGN CHOICE, log entry 131). -/
def attempt (s : State) (ck x : Nat) : State :=
  let c := s.ctx ck x
  let t := (s.core ck).cycle
  let pc := c.arch.pc
  if decide (t < c.issueAt) || c.ckOwed != 0 then endCycle s ck
  else if c.deferred != 0 then endCycle (takeTrap s ck x c.deferred pc 0) ck
  else if c.drain && !drained s ck x then endCycle s ck
  else
    let s1 := if c.drain then s.modCtx ck x (fun c => { c with drain := false }) else s
    match fetch s1 ck x with
    | none => endCycle (takeTrap s1 ck x cPool pc 0) ck
    | some w => issueBundle (openFrame s1 ck x w.bits) ck x w

/-- A cycle in which no context of a core issues; a core without resident contexts is at the present. -/
def idleCycle (s : State) (ck : Nat) : State :=
  endCycle (s.catchUp ck) ck

/-- BUNDLE_ISSUE (R11, R39): one arithmetic cycle of core `ev.core`: the selected context's bundle issues, or nothing does. A bundle
that issues leaves its frame open with its forms to perform. -/
def execBundleIssue (s : State) : Out :=
  let ck := s.ev.core
  match select s ck with
  | none => .next (idleCycle s ck)
  | some (x, n) => .next (attempt (s.modCore ck (fun c => { c with selCtx := x, selHeld := n })) ck x)

-- the G forms

/-- R16, R17, R18: the entries of an index in selected groups come next, with ARG and the index's class. The index is the front bank's as
the bundle is performed, for a `sluice` bundle the new one (DESIGN CHOICE, log entry 133). -/
def broadcast (idx : Nat) (arg : BitVec 8) (gs : List Nat) (s : State) : Out :=
  let f := s.frame
  let c := s.core f.core
  match c.front.find idx with
  | none => .next (s.trapFrame cIllegal)
  | some ix =>
    if c.owner != some s.me.launch then .next (s.trapFrame cResource)
    else .next { s with frame := { f with arg := arg, cls := ix.cls, todo := groupForms s f.core idx gs ++ f.todo } }

def execBx (i : BitVec 10) (a : BitVec 8) (s : State) : Out := broadcast i.toNat a (List.range 8) s
def execBxm (i : BitVec 10) (a m : BitVec 8) (s : State) : Out :=
  broadcast i.toNat a ((List.range 8).filter (fun g => m.getLsbD g)) s

-- performing a frame

/-- R39: a context that has blocked gives up its turn. -/
def yieldSlot (s : State) (ck x : Nat) : State :=
  match (s.ctx ck x).status with
  | .blocked _ => s.modCore ck (fun c => { c with selHeld := Config.holdCycles })
  | _ => s

/-- Whether the frame's bundle is committing. -/
def frameCommits (s : State) : Bool :=
  match imAt s s.frame.core s.frame.ctx s.frame.pc with
  | some w => bundleCommits s s.frame.core w.bits
  | none => false

/-- The forms of an open frame are performed in order, each by `ex`, and the bundle ends. -/
def runFrame (ex : Instr → State → Out) (commit : Bool) : Nat → State → Out
  | 0, s => .next (closeBundle s commit)
  | n + 1, s =>
    match s.frame.todo with
    | [] => .next (closeBundle (if s.frame.gone then yieldSlot s s.frame.core s.frame.ctx else s) commit)
    | (p, i) :: t =>
      match ex i { s with frame := { s.frame with todo := t, pos := p } } with
      | .next s' => runFrame ex commit n s'
      | .fault r => .fault r
      | .refused r => .refused r

/-- A step of the machine: the instruction, and the forms of the bundle that it opens. -/
def runStep (ex : Instr → State → Out) (i : Instr) (s : State) : Out :=
  match ex i s with
  | .next s' => if s'.frame.active then runFrame ex (frameCommits s') 16 s' else .next s'
  | .fault r => .fault r
  | .refused r => .refused r

-- other events of issue

/-- TRAP_TAKEN (R36, R334): a trap with the cause `ev.num` strikes a context that runs. -/
def execTrapTaken (s : State) : Out :=
  let ck := s.ev.core
  let x := s.ev.ctx
  let c := s.ctx ck x
  let runs := match c.status with | .ready => true | .blocked _ => true | _ => false
  if runs && decide (1 ≤ s.ev.num) && decide (s.ev.num ≤ 0x10) then .next (takeTrap s ck x s.ev.num c.arch.pc 0) else .next s

/-- IM_FETCH_AHEAD (R336): IM position `ev.addr` of a core is fetched ahead of issue; `ev.num` says what the fetch finds: 0 no
error, 1 one that is corrected, 2 one that is not. -/
def execImFetchAhead (s : State) : Out :=
  let ck := s.ev.core
  let p := s.ev.addr
  let s1 := s.modCore ck (fun c => { c with ahead := addOnce p c.ahead })
  if s.ev.num = 1 then .next (s1.countCore ck 0x00)
  else if s.ev.num = 2 then
    .next ((s1.modCore ck (fun c => { c with im := c.im.set p { c.im.get p {} with poisoned := true } })).countCore ck 0x08)
  else .next s1

end Sys2Proof.Machine
end

