-- ==== Sys2Proof/Machine/Restore.lean ====
section
/-!
DEFINITION. Restore from a save area (R341): the parts of Tables 15.5 to 15.8 read back into a context, the scope table rebuilt and
revalidated (R254), and the queued engine commands accepted again.
-/

namespace Sys2Proof.Machine

/-- R341 step 1: the windows with which a saved context was written; the others are the armature's. -/
def savedWindows (w : Windows) (head : List Byte) : Windows :=
  { w with vregs := fieldAt head 0x30 1, tiles := fieldAt head 0x31 1, mxu := bitsOf (fieldAt head 0x32 1) 0 1 == 1
           spad := fieldAt head 0x38 4 }

/-- Table 15.6: a loop level read back. -/
def loopOfBytes (b : List Byte) : Loop :=
  let w := fieldAt b 0x10 8
  { run := bitsOf w 0 1 == 1
    remain := fieldAt b 0 4, iter := fieldAt b 4 4, first := fieldAt b 8 4, last := fieldAt b 0xC 4
    strides := ((List.range 4).filter (fun k => bitsOf w (4 + k) 1 == 1)).map (fun k =>
      (k, (bitsOf w (8 * k + 8) 5, BitVec.ofNat 64 (fieldAt b (0x18 + 8 * k) 8)))) }

/-- Table 15.5: an arrival read back. -/
def arrivalOfBytes (b : List Byte) : Arrival :=
  let w := fieldAt b 0 8
  let v := fieldAt b 8 8
  let ck := v / 512 % 512 * 512 + v % 512
  { level := w % 8, id := w / 8 % 4, unit := unitOf (w % 8) ck, phase := w / 2 ^ 32, core := ck }

/-- Table 15.8: a handle read back: its consumer pointer, and what it holds filled. -/
def handleOfSave (b : List Byte) : Option Handle :=
  let d := handleOfBytes b
  if d.slotBytes = 0 then none
  else
    let c := fieldAt b 0x20 2
    some { desc := d, consumed := c, produced := c + fieldAt b 0x24 2, returned := c }

/-- R341 step 3: a binding rebound from its recorded descriptor at its recorded position; one whose descriptor can no longer be read
is unbound. -/
def bindingOfSave (s : State) (pkg pasid : Nat) (img : Image) (b : List Byte) : Option Binding :=
  let w := fieldAt b 8 8
  let src := fieldAt b 0 8
  if bitsOf w 0 1 = 0 then none
  else
    let t := bitsOf w 2 1 == 1
    let d := if t then img.streamsT[src % 65536]? else
      match procRead s pkg pasid src 64 with | .ok bs => some bs | .error _ => none
    match d with
    | none => none
    | some bs =>
      if streamOk (img.features.getLsbD 1) bs then
        some { desc := streamOfBytes bs, src := src, template := t, pos := fieldAt b 0x10 8 }
      else none

/-- The recorded cause of a saved binding, 0 for none. -/
def causeOfSave (b : List Byte) : Nat :=
  let w := fieldAt b 8 8
  if bitsOf w 3 1 = 1 then bitsOf w 8 8 else 0

/-- Numbered parts of a block, where they give something. -/
def partsOf {α : Type} (n at_ size : Nat) (bs : List Byte) (f : List Byte → Option α) : List (Nat × α) :=
  (List.range n).filterMap (fun k => (f ((bs.drop (at_ + size * k)).take size)).map (fun a => (k, a)))

/-- The same for the eight groups of a save area, keyed `key` to a group. -/
def groupParts {α : Type} (key n at_ size : Nat) (bs : List Byte) (f : List Byte → Option α) : List (Nat × α) :=
  (List.range 8).flatMap (fun g => (partsOf n (0x3800 + 1024 * g + at_) size bs f).map (fun p => (key * g + p.1, p.2)))

/-- R341 steps 2 to 4: the registers of a context from the bytes of its save area. -/
def archOfSave (s : State) (pkg pasid : Nat) (img : Image) (w : Windows) (pc : Nat) (bs : List Byte) : Arch :=
  let w1 := fieldAt bs 8 8
  let n := bitsOf w1 45 3
  let nat (k : Nat) (b : List Byte) : Option Nat := some (fieldAt b 0 k)
  { pc := pc
    s := ((List.range 30).map (fun i => (i + 1, BitVec.ofNat 64 (fieldAt bs (0x88 + 8 * i) 8))))
    p := BitVec.ofNat 8 (fieldAt bs 0x180 1)
    loops := partsOf 6 0x200 64 bs (fun b => some (loopOfBytes b))
    ldq := (List.range (bitsOf w1 40 5)).map (fun i => { id := 0, val := some (BitVec.ofNat 64 (fieldAt bs (0x380 + 8 * i) 8)) })
    v := (List.range 8).flatMap (fun g => (partsOf w.vregs (0x6000 + 128 * w.vregs * g) 128 bs
      (fun b => some (vregOfBytes b))).map (fun p => (64 * g + p.1, p.2)))
    tiles := (List.range 8).flatMap (fun g => (partsOf w.tiles (saveTiles w + 1024 * w.tiles * g) 1024 bs
      (fun b => some (tileOfBytes b))).map (fun p => (8 * g + p.1, p.2)))
    masks := ((groupParts 8 8 0 4 bs (nat 4)).filter (fun p => p.1 % 8 != 0)).map (fun p => (p.1, BitVec.ofNat 32 p.2))
    gregs := (groupParts 8 8 0x20 4 bs (nat 4)).map (fun p => (p.1, BitVec.ofNat 32 p.2))
    handles := groupParts 8 8 0x40 48 bs handleOfSave
    latches := groupParts 8 8 0x1C0 32 bs (bindingOfSave s pkg pasid img)
    queues := groupParts 8 4 0x2C0 32 bs (bindingOfSave s pkg pasid img)
    rbq := (List.range n).map (fun i => BitVec.ofNat 8192 (fillEntry (fieldAt bs 0x18 8) ((fieldAt bs 0x10 8 + i) % 2 ^ 64) 64))
    rfill := (fieldAt bs 0x10 8 + n) % 2 ^ 64
    rngKey := BitVec.ofNat 64 (fieldAt bs 0x18 8)
    rngOn := bitsOf w1 48 1 == 1
    cols := (List.range 512).map (fun i => (i, BitVec.ofNat 48 (fieldAt bs (0x2800 + 8 * i) 6))) }

/-- R341 step 3: recorded causes of latches, as faulted entries at their positions, and of queues. -/
def faultsOfSave (a : Arch) (bs : List Byte) : Tbl (List LatchEntry) × Tbl Nat :=
  let cause (b : List Byte) : Option Nat := if causeOfSave b = 0 then none else some (causeOfSave b)
  ((groupParts 8 8 0x1C0 32 bs cause).map (fun p => (p.1, [{ num := (a.latches.get p.1 {}).pos, data := 0, fault := p.2 }])),
   groupParts 8 4 0x2C0 32 bs cause)

/-- R341 step 5, R254: entry n of a rebuilt scope table: unset, or with the GEN of memory and stale where it must be. -/
def scopeOfMemory (s : State) (pkg pasid base n : Nat) : Option Scope :=
  match procRead s pkg pasid (base + 160 * n) 160 with
  | .error _ => none
  | .ok bs =>
    let e := scopeOfBytes bs
    if !e.set then none else some { e with stale := e.stale || scopeInval bs || namesRetired s pkg e }

/-- The rebuilt table. -/
def rebuiltScopes (s : State) (pkg pasid base : Nat) : Tbl Scope :=
  (List.range 24).filterMap (fun i => (scopeOfMemory s pkg pasid base (8 + i)).map (fun e => (8 + i, e)))

/-- Each entry of a rebuilt table that is stale takes STALE in memory. -/
def markStaleCopies (s : State) (pkg pasid base : Nat) (t : Tbl Scope) : State :=
  t.foldl (fun s p =>
    if p.2.stale then
      match procRead s pkg pasid (base + 160 * p.1 + 2) 1 with
      | .ok b => s.devWrite pkg pasid (base + 160 * p.1 + 2) [b.headD 0 ||| 2]
      | .error _ => s
    else s) s

/-- R341 step 2: the allocation, its tags, the FIFOs and the side memory. -/
def restoreCore (w : Windows) (base : Nat) (bs : List Byte) (k : Core) : Core :=
  let mem := (List.range 8).foldl (fun m b =>
    Mem.put m (131072 * b + base) ((bs.drop (saveSpad w + w.spad / 8 * b)).take (w.spad / 8))) k.spad
  let words := (List.range (w.spad / 4)).filter (fun i => bitsOf (fieldAt bs (saveTags w + i / 8) 1) (i % 8) 1 == 1)
  let full := words.map (fun i => spadPhys w.spad base (4 * i) / 4)
  let k1 := { k with spad := mem, full := k.full ++ full }
  if !w.mxu then k1
  else
    let f (g : Nat) : Nat := saveMxu w + 36864 * g
    { k1 with
      fifoUE := []
      fifos := (List.range 8).foldl (fun t g =>
        (t.set (2 * g) (Mem.put [] 0 ((bs.drop (f g)).take 16384))).set (2 * g + 1)
          (Mem.put [] 0 ((bs.drop (f g + 16384)).take 16384))) k1.fifos
      side := (List.range 1024).foldl (fun t i =>
        t.set i (BitVec.ofNat 256 (fieldAt bs (f (i / 128) + 32768 + 32 * (i % 128)) 32))) k1.side }

/-- R341 step 7: a queued command is accepted again with its own number, under a new snapshot. -/
def reaccept (s0 : State) (ck x n : Nat) (b : List Byte) : State :=
  let s := { s0 with frame := { core := ck, ctx := x, old := (s0.ctx ck x).arch } }
  let w := fieldAt b 8 8
  let op := w % 64
  let sc := bitsOf w 8 5
  let d := fieldAt b 0x10 8
  let desc := if d = 0 && mayLackBlock op then noBlock else d
  let c : EngCmd :=
    { num := fieldAt b 0 8, op := op, desc := desc, opnd := fieldAt b 0x18 8, sc := sc, flags := bitsOf w 16 8
      snap := s.scopeNow sc, tag := tagAt s ck x desc, at_ := s.free, selTab := if op = 9 then selTabNow s (pkgOf ck) else []
      verdict := if (scopeCause s.frame.old sc).isSome then some (fail eBadBlock) else none }
  let c' : EngCmd :=
    if bitsOf w 24 1 = 0 then c
    else
      match (acceptBytes s ck x desc 56).res with
      | .ok body =>
        (match trigHeld s n c.num body with
         | .ok h =>
           if h.thresh ≤ (s.eng ck x h.watch).tl then
             { c.fire h with tag := (tagAt s ck x h.desc).orElse (fun _ => c.tag)
                             selTab := if h.op = 9 then selTabNow s (pkgOf ck) else [] }
           else { c with trig := some h }
         | .error e => { c with verdict := some e })
      | .bad e => { c with verdict := some e }
      | .wait => { c with verdict := some (fail eTranslation desc) }
  let e := s.eng ck x n
  { pushTag (s.setEng ck x n { e with cmds := e.cmds ++ [c'] }) ck x n c' with frame := s0.frame }

/-- Table 15.7: the queued commands of an engine context of a save area. -/
def savedCmds (bs : List Byte) (n : Nat) : List (List Byte) :=
  let o := 0x600 + 1088 * n
  (List.range (fieldAt bs (o + 0x10) 1 % 64)).map (fun i => (bs.drop (o + 0x40 + 32 * i)).take 32)

/-- R341 step 7, Table 15.7: an engine context; numbers given and not queued have completed. -/
def restoreEngine (s : State) (ck x : Nat) (bs : List Byte) (n : Nat) : State :=
  let o := 0x600 + 1088 * n
  let issued := fieldAt bs o 8
  let tl := fieldAt bs (o + 8) 8
  let nums := (savedCmds bs n).map (fun b => fieldAt b 0 8)
  let done := ((List.range (issued - tl)).map (fun i => tl + 1 + i)).filter (fun k => !nums.contains k)
  s.setEng ck x n { issued := issued, tl := tl, done := done }

/-- R341, R350: the restore of a record whose save area holds `bs` would read a page that migrates: a descriptor of a binding, the
scope table, the header of a queued command's block (R189), or the block of a trigger and the header of the one that it holds. -/
def restoreWaits (s : State) (pkg pasid scopeTab : Nat) (bs : List Byte) : Bool :=
  let desc (b : List Byte) : Option Nat := if bitsOf (fieldAt b 8 8) 0 1 = 1 ∧ bitsOf (fieldAt b 8 8) 2 1 = 0 then some (fieldAt b 0 8) else none
  let binds := (groupParts 8 8 0x1C0 32 bs desc ++ groupParts 8 4 0x2C0 32 bs desc).map (·.2)
  let cmds := (List.range 8).flatMap (savedCmds bs)
  let heads := cmds.map (fun b => fieldAt b 0x10 8)
  let trigs := (cmds.filter (fun b => bitsOf (fieldAt b 8 8) 24 1 == 1)).map (fun b => fieldAt b 0x10 8)
  let heldHead (a : Nat) : Bool :=
    match procRead s pkg pasid a 56 with
    | .ok body => readWaits s pkg pasid (fieldAt body 0x20 8) 16
    | .error _ => false
  binds.any (fun a => readWaits s pkg pasid a 64) || readWaits s pkg pasid (scopeTab + 160 * 8) (160 * 24) ||
  heads.any (fun a => readWaits s pkg pasid a 16) || trigs.any (fun a => readWaits s pkg pasid a 56 || heldHead a)

/-- R341 steps 2 to 7 for a context that already has its record's fields, its windows and its allocation. -/
def restoreCtx (s : State) (ck x pc : Nat) (img : Image) (bs : List Byte) : State :=
  let p := pkgOf ck
  let c := s.ctx ck x
  let a := archOfSave s p c.pasid img c.win pc bs
  let scopes := rebuiltScopes s p c.pasid c.scopeTab
  let f := faultsOfSave a bs
  let phase (r : Arrival) : Arrival :=
    match s.launchOf ck x with
    | some l => { r with phase := unwrapPhase (l.barrier r.level r.unit r.id).phase r.phase }
    | none => r
  let arr := (List.range (bitsOf (fieldAt bs 8 8) 32 5)).map (fun i => phase (arrivalOfBytes ((bs.drop (0x400 + 16 * i)).take 16)))
  let c1 : Ctx :=
    { c with
      arch := { a with scopes := scopes }
      fstat := BitVec.ofNat 64 (fieldAt bs 0x20 8)
      terr := BitVec.ofNat 8 (fieldAt bs 0x28 1)
      sluiceCount := fieldAt bs 8 4
      arrivals := arr
      joins := arr.foldl (fun t r => t.set (4 * r.level + r.id) joinHeld) c.joins
      latchBuf := f.1
      qFault := f.2 }
  let s1 := (s.setCtx ck x { c1 with snap := c1.arch }).modCore ck (restoreCore c.win c.base bs)
  let s2 := (List.range 8).foldl (fun s n => restoreEngine s ck x bs n) (markStaleCopies s1 p c.pasid c.scopeTab scopes)
  (List.range 8).foldl (fun s n => (savedCmds bs n).foldl (fun s b => reaccept s ck x n b) s) s2

end Sys2Proof.Machine
end

