-- ==== Sys2Proof/Machine/Work.lean ====
section
/-!
DEFINITION. Work: candidates and pickup (R216 to R224), the distributors and steal rounds (R228, R229), gang start (R231 to R233),
the sluice's decision and swap (R234, R235), and pre-emption (R338).
-/

namespace Sys2Proof.Machine

-- room on a core

/-- R13: the windows fit beside those of the resident contexts. -/
def windowsFit (c : Core) (w : Windows) : Bool :=
  let l := (residents c).map (fun k => k.2.win)
  let sum (f : Windows → Nat) : Nat := (l.map f).sum + f w
  decide (sum (·.vregs) ≤ Config.sumVregs) && decide (sum (·.tiles) ≤ Config.sumTiles) &&
  decide (sum (·.handles) ≤ Config.sumHandles) && decide (sum (·.latches) ≤ Config.sumLatches) &&
  decide (sum (·.queues) ≤ Config.sumQueues) && !(w.mxu && l.any (·.mxu))

/-- The lowest start, among 0 and the ends of what is taken, at which `n` places below `top` are free. -/
def freeRun (taken : List (Nat × Nat)) (n top : Nat) : Option Nat :=
  let free (b : Nat) : Bool := decide (b + n ≤ top) && taken.all (fun t => decide (t.2 ≤ b) || decide (b + n ≤ t.1))
  (0 :: taken.map (·.2)).foldl (fun m b =>
    if free b then (match m with | some a => some (min a b) | none => some b) else m) none

/-- R237: a bank-local base for an allocation. -/
def spadBase (c : Core) (w : Windows) : Option Nat :=
  freeRun ((residents c).map (fun k => (k.2.base, k.2.base + k.2.win.spad / 8))) (w.spad / 8) 131072

/-- R224: the IM base of a launch's image: where it lies, or where it can be placed. -/
def imBase (s : State) (c : Core) (l : Launch) : Option Nat :=
  match c.bases.find l.id with
  | some b => some b
  | none =>
    let taken := c.bases.filterMap (fun p => (s.launch p.1).map (fun y => (p.2, p.2 + y.image.im.length)))
    freeRun taken l.image.im.length Config.imBundles

/-- R242: all four cores of a core's quad are idle. -/
def quadIdle (s : State) (ck : Nat) : Bool :=
  (List.range 4).all (fun i => (residents (s.core (ck / 4 * 4 + i))).isEmpty)

/-- R18, R220, R223, R224, R242: the core can take the launch's image, and a context with the windows fits. -/
def roomFor (s : State) (ck : Nat) (l : Launch) (w : Windows) : Bool :=
  let c := s.core ck
  windowsFit c w && (spadBase c w).isSome && (imBase s c l).isSome && (quadIdle s ck || c.fused == l.image.fuse) &&
  (!l.image.hasTable || c.owner.isNone || c.owner == some l.id)

/-- R333, R353: the core may pick up: it is in service and not closed. -/
def coreOpen (s : State) (ck : Nat) : Bool :=
  let k := s.pkg (pkgOf ck)
  k.running && !(s.core ck).closed && !k.retCores.contains ck && !k.retDies.contains (dieOf ck)

-- taking a core

/-- R242: the quad takes the FUSE flag of the first armature picked up while its cores were idle. -/
def takeQuad (s : State) (ck : Nat) (fuse : Bool) : State :=
  if !quadIdle s ck || (s.core ck).fused == fuse then s
  else (List.range 4).foldl (fun s i => s.modCore (ck / 4 * 4 + i) (fun c => { c with fused := fuse, l1 := [] })) s

/-- R224: the image lies in IM from its base, tagged from the pool map. -/
def placeImage (l : Launch) (b : Nat) (c : Core) : Core :=
  if (c.bases.find l.id).isSome then c
  else
    let n := l.image.im.length
    { c with
      bases := c.bases.set l.id b
      im := l.image.im.zipIdx.foldl (fun t w => t.set (b + w.2) { bits := w.1.1, pool := w.1.2 }) c.im
      ahead := c.ahead.filter (fun p => decide (p < b) || decide (b + n ≤ p)) }

/-- R223: the launch takes the table set, with both banks reset and the INIT image in the front bank. -/
def takeTable (l : Launch) (c : Core) : Core :=
  if !l.image.hasTable || c.owner == some l.id then c
  else { c with owner := some l.id, front := if l.image.hasInit then writeTable l.image.init [] else [], back := [], sealed := false }

/-- R223, R224, R240: what a launch does before its first pickup on a core. -/
def takeCore (s : State) (ck : Nat) (l : Launch) : State :=
  let s0 := takeQuad s ck l.image.fuse
  match imBase s0 (s0.core ck) l with
  | none => s0
  | some b =>
    let s1 := s0.modCore ck (fun c => takeTable l (placeImage l b c))
    if (s1.core ck).started.contains l.id then s1
    else (s1.l1Flush ck).modCore ck (fun c => { c with started := l.id :: c.started })

-- pickup

/-- The cycle that a core issues next, not before the present. -/
def State.nowCycle (s : State) (ck : Nat) : Nat := max (s.core ck).cycle ((s.tick + 1) / 2 - (s.core ck).lag)

/-- R233, R235: the next pulse of the arithmetic clock, not before the present, that is common to the cores of contexts and on which
none of them is held. -/
def commonPulse (s : State) (ms : List (Nat × Nat)) : Nat :=
  ms.foldl (fun n m => max n (max (s.core m.1).pulse ((s.ctx m.1 m.2).issueAt + (s.core m.1).lag))) ((s.tick + 1) / 2)

/-- R221: the allocation's words are zero and empty. -/
def zeroAllocation (w : Windows) (base : Nat) (c : Core) : Core :=
  let inside (a : Nat) : Bool := decide (base ≤ a % 131072) && decide (a % 131072 < base + w.spad / 8)
  { c with
    spad := c.spad.filter (fun x => !inside x.1)
    full := c.full.filter (fun a => !inside (4 * a))
    spadUE := c.spadUE.filter (fun a => !inside (4 * a)) }

/-- R226: members of the launch have arrived in its present sluice. -/
def sluiceBegun (s : State) (l : Launch) : Bool := (members s l.id).any (fun m => (s.ctx m.1 m.2).inSluice)

/-- R221, R341: context `x` picks up the record in a slot, whose 64 bytes are `r`; `save` holds the save area where SAVE is
set. -/
def pickUp (s0 : State) (ck x : Nat) (l : Launch) (slot : Nat) (r : List Byte) (save : List Byte) (tcause : Word)
    (st : Status) : State :=
  let s := takeCore (s0.catchUp ck) ck l
  let p := pkgOf ck
  let w := if save.isEmpty then l.image.win else savedWindows l.image.win save
  let base := (spadBase (s.core ck) w).getD 0
  let w0 := fieldAt r 0 8
  let pc := w0 % 2 ^ 32
  let now := s.nowCycle ck
  let arch : Arch := { pc := pc }
  let c : Ctx :=
    { status := st
      launch := l.id
      slot := slot
      recAddr := l.recAt slot
      saveArea := fieldAt r 0x38 8 / 128 * 128
      pick := s.free + 1
      pasid := l.pasid
      win := w
      base := base
      arch := arch
      snap := arch
      item := BitVec.ofNat 64 (fieldAt r 8 8)
      frame := BitVec.ofNat 64 (fieldAt r 0x10 8)
      scopeTab := fieldAt r 0x18 8
      args := (List.range 3).map (fun i => (i, BitVec.ofNat 64 (fieldAt r (0x20 + 8 * i) 8)))
      prio := min (fieldAt r 0x38 1 % 128) l.prio
      tcause := tcause
      sluiceCount := l.sluiceCount
      joins := (joinPhases l ck).set 24 (if sluiceBegun s l then l.sluiceCount + 1 else l.sluiceCount)
      interval := (s.ctx ck x).interval
      issueAt := now + (w.spad + 1023) / 1024 }
  let w1 := if bitsOf w0 48 1 = 1 then w0 - 2 ^ 48 else w0
  let s1 := (s.modCore ck (fun k => { zeroAllocation w base k with regUE := k.regUE.filter (fun m => m.1 / 1024 != x) })).setCtx ck x c
  let s2 := s1.devWrite p l.pasid (l.recAt slot) (leBytes 8 w1)
  let sc := if l.pod then 5 else 4
  let s3 := acquire s2 ck x sc (fixedScope s2 ck x sc)
  if save.isEmpty then s3 else restoreCtx s3 ck x pc l.image save

/-- R216: the lowest-numbered free slot of a launch's arena. -/
def freeSlot (l : Launch) : Option Nat := (List.range l.recs).find? (fun j => !l.used.contains j)

/-- R216: the record of a new item. -/
def newRecord (l : Launch) (slot item : Nat) : List Byte :=
  leBytes 8 (recordWord l.imageSlot l.image.entry 0 0 false false) ++ leBytes 8 item ++
  leBytes 8 (l.frameBase + item * l.frameStride) ++ leBytes 8 (l.scopesAt slot) ++
  leBytes 8 (l.args.getD 0 0).toNat ++ leBytes 8 (l.args.getD 1 0).toNat ++ leBytes 8 (l.args.getD 2 0).toNat ++
  leBytes 8 (l.saveAt slot / 128 * 128 + l.prio % 128)

/-- R216, R221: a context picks up a new item under a slot. -/
def pickUpItem (s : State) (ck x : Nat) (l : Launch) (slot item : Nat) (st : Status) : State :=
  let r := newRecord l slot item
  let s1 := s.devWrite (pkgOf ck) l.pasid (l.recAt slot) r
  let s2 := s1.modLaunch l.id (fun l => { l with used := addOnce slot l.used })
  pickUp s2 ck x l slot r [] 0 st

-- candidates

/-- What a context may pick up: the launch, its priority, its place in R220's order (0 an item of a chunk the core holds, 1 a
record of the ready list, 2 a new chunk), what orders it among those, and the record's slot. -/
structure Cand where
  launch : Launch
  prio   : Nat
  kind   : Nat
  stamp  : Nat := 0
  slot   : Nat := 0

/-- R220: one candidate comes before another. -/
def Cand.before (a b : Cand) : Bool :=
  decide (b.prio < a.prio) ||
  (a.prio == b.prio && (decide (a.kind < b.kind) ||
    (a.kind == b.kind && (decide (a.stamp < b.stamp) || (a.stamp == b.stamp && decide (a.launch.id < b.launch.id))))))

/-- The first of a list of candidates. -/
def firstCand : List Cand → Option Cand
  | [] => none
  | a :: t => match firstCand t with
    | some b => some (if b.before a then b else a)
    | none => some a

/-- R355: a distributor whose own range is used up goes on with one that has passed to it. -/
def Launch.advance (l : Launch) (dk : Nat) : Launch :=
  let r := l.ranges.get dk (0, 0)
  match l.passed.get dk [] with
  | p :: t => if r.1 < r.2 then l else { l with ranges := l.ranges.set dk p, passed := l.passed.set dk t }
  | [] => l

/-- R228: items of a distributor: its oldest returned range before its remaining range. -/
def nextRange (l : Launch) (dk : Nat) : Option (Nat × Nat) :=
  match l.returned.get dk [] with
  | r :: _ => some r
  | [] => let r := (l.advance dk).ranges.get dk (0, 0); if r.1 < r.2 then some r else none

/-- R228: a chunk that the core already holds. -/
def heldChunk (c : Core) (id : Nat) : Option Chunk := c.chunks.find? (fun k => k.launch == id && decide (k.lo < k.hi))

/-- A record as the distributor reads it: its bytes, and its save area where SAVE is set. -/
def readRecord (s : State) (ck : Nat) (l : Launch) (slot : Nat) : Option (List Byte × List Byte) :=
  let p := pkgOf ck
  match procRead s p l.pasid (l.recAt slot) 64 with
  | .error _ => none
  | .ok r =>
    if bitsOf (fieldAt r 0 8) 48 1 = 0 then
      (if readWaits s p l.pasid (fieldAt r 0x38 8 / 128 * 128) 8 then none else some (r, []))
    else
      let at_ := fieldAt r 0x38 8 / 128 * 128
      match procRead s p l.pasid at_ 0x40 with
      | .error _ => none
      | .ok h =>
        match procRead s p l.pasid at_ (saveSize (savedWindows l.image.win h)) with
        | .ok b => if restoreWaits s p l.pasid (fieldAt r 0x18 8) b then none else some (r, b)
        | .error _ => none

/-- R337: TCAUSE of a handler's pickup, from word 0x000 of the save area: the record is new and keeps its CAUSE. -/
def handlerCause (s : State) (ck : Nat) (l : Launch) (r : List Byte) : Word :=
  let w := fieldAt r 0 8
  if bitsOf w 50 2 = 0 ∧ bitsOf w 56 8 ≠ 0 then
    match procRead s (pkgOf ck) l.pasid (fieldAt r 0x38 8 / 128 * 128) 8 with
    | .ok b => BitVec.ofNat 64 (fieldAt b 0 8)
    | .error _ => 0
  else 0

/-- R220: the candidates that a launch offers a core. -/
def candidatesOf (s : State) (ck : Nat) (l : Launch) : List Cand :=
  let dk := dieOf ck
  if l.phase != .running || l.frozen || !l.cores.contains ck then []
  else
    let items : List Cand :=
      if !roomFor s ck l l.image.win || (freeSlot l).isNone then []
      else
        match heldChunk (s.core ck) l.id, nextRange l dk with
        | some _, _ => [{ launch := l, prio := l.prio, kind := 0 }]
        | none, some _ => [{ launch := l, prio := l.prio, kind := 2 }]
        | none, none => []
    let records : List Cand := (l.readyQ.get dk []).filterMap (fun r =>
      match readRecord s ck l r.1 with
      | some (b, sv) =>
        let w := if sv.isEmpty then l.image.win else savedWindows l.image.win sv
        if roomFor s ck l w then
          some { launch := l, prio := min (fieldAt b 0x38 1 % 128) l.prio, kind := 1, stamp := r.2, slot := r.1 }
        else none
      | none => none)
    items ++ records

/-- R228: the next item of a launch for a core, from the chunk it holds or from a new one. -/
def takeItem (s : State) (ck : Nat) (l : Launch) : State × Nat :=
  let c := s.core ck
  let dk := dieOf ck
  match heldChunk c l.id with
  | some k =>
    let k' := { k with lo := k.lo + 1 }
    let rest := c.chunks.filter (fun y => !(y.launch == l.id && y.lo == k.lo))
    (s.setCore ck { c with chunks := if k'.lo < k'.hi then k' :: rest else rest }, k.lo)
  | none =>
    match nextRange l dk with
    | none => (s, 0)
    | some (lo, hi) =>
      let mid := min (lo + l.image.chunk) hi
      let s1 := s.modLaunch l.id (fun y =>
        let y := y.advance dk
        match y.returned.get dk [] with
        | _ :: t => { y with returned := y.returned.set dk (if mid < hi then (mid, hi) :: t else t) }
        | [] => { y with ranges := y.ranges.set dk (mid, hi) })
      (s1.modCore ck (fun c => { c with chunks := if lo + 1 < mid then c.chunks ++ [{ launch := l.id, lo := lo + 1, hi := mid }] else c.chunks }), lo)

/-- A candidate is picked up. -/
def takeCand (s : State) (ck x : Nat) (k : Cand) : State :=
  let l := k.launch
  if k.kind = 1 then
    match readRecord s ck l k.slot with
    | none => s
    | some (r, sv) =>
      let s1 := s.modLaunch l.id (fun y =>
        { y with readyQ := y.readyQ.set (dieOf ck) ((y.readyQ.get (dieOf ck) []).filter (fun e => e.1 != k.slot)) })
      pickUp s1 ck x l k.slot r sv (handlerCause s ck l r) .ready
  else
    match freeSlot l with
    | none => s
    | some j => let t := takeItem s ck l; pickUpItem t.1 ck x l j t.2 .ready

/-- R222: the next item of the chunk that the core held when the context completed an item of its launch. -/
def preferred (s : State) (ck x : Nat) : Option Cand :=
  match (s.ctx ck x).prefer with
  | none => none
  | some (id, hi) =>
    match s.launch id, heldChunk (s.core ck) id with
    | some l, some k => if k.hi = hi then (candidatesOf s ck l).find? (fun k => k.kind == 0) else none
    | _, _ => none

/-- R220: what an idle context of a core, one of its four (R5), picks up now. -/
def candidateFor (s : State) (ck x : Nat) : Option Cand :=
  if !coreOpen s ck || decide (4 ≤ x) || (s.ctx ck x).status != .idle then none
  else (preferred s ck x).orElse (fun _ => firstCand (s.launches.flatMap (candidatesOf s ck)))

/-- PICKUP (R220 to R224): the distributor port of core `ev.core` gives its idle context `ev.ctx` a candidate, if there is one. -/
def execPickup (s : State) : Out :=
  match candidateFor s s.ev.core s.ev.ctx with
  | some k => .next (takeCand s s.ev.core s.ev.ctx k)
  | none => .next s

-- steal rounds

/-- Dies of a launch's core set that are in service, in the order of R228. -/
def Launch.dies (l : Launch) : List Nat := (l.cores.map dieOf).eraseDups

/-- R229: the largest range of at least two items; the lowest die among equals. -/
def stealVictim (ranges : Tbl (Nat × Nat)) (dies : List Nat) : Option Nat :=
  let size (d : Nat) : Nat := let r := ranges.get d (0, 0); r.2 - r.1
  let top := dies.foldl (fun m d => max m (size d)) 0
  if top < 2 then none else dies.find? (fun d => size d == top)

/-- R229: one thief steals. -/
def steal (dies : List Nat) (ranges : Tbl (Nat × Nat)) (thief : Nat) : Tbl (Nat × Nat) :=
  match stealVictim ranges dies with
  | none => ranges
  | some d =>
    let r := ranges.get d (0, 0)
    let mid := r.1 + (r.2 - r.1 + 1) / 2
    (ranges.set d (r.1, mid)).set thief (mid, r.2)

/-- R229: the dry distributors of a launch. -/
def dryDies (l : Launch) (dies : List Nat) : List Nat :=
  dies.filter (fun d => let r := l.ranges.get d (0, 0); decide (r.2 ≤ r.1) && (l.returned.get d []).isEmpty)

/-- R229: a round boundary of 2,000 ns has been reached since the launch's last round. -/
def stealDue (s : State) (l : Launch) : Bool :=
  l.phase == .running && !l.gang && decide (l.stole < s.devTime l.pkg / 2000)

/-- STEAL_ROUND (R229): the round of launch `ev.launch`, once a boundary has passed, over the dies whose clocks run (R363). -/
def execStealRound (s : State) : Out :=
  match s.launch s.ev.launch with
  | none => .next s
  | some l =>
    if !stealDue s l then .next s
    else
      let dies := l.dies.filter (fun d => !(s.pkg (diePkg d)).retDies.contains d && s.clocked (diePkg d))
      .next (s.modLaunch l.id (fun y0 =>
        let y := dies.foldl Launch.advance y0
        { y with stole := s.devTime l.pkg / 2000, ranges := (dryDies y dies).foldl (steal dies) y.ranges }))

-- gang start

/-- R232: a preset is applied to a context's allocation. -/
def applyPreset (w : Windows) (base : Nat) (c : Core) (r : Preset) : Core :=
  (List.range r.count).foldl (fun c i =>
    let a := spadPhys w.spad base (r.offset + 4 * i) / 4
    (c.setWord a (if r.full then r.value.toNat else 0)).setFull a r.full) c

/-- R232: the lowest-numbered idle context of a core. -/
def idleOf (c : Core) : Option Nat := (List.range 4).find? (fun x => (c.ctx x).status == .idle)

/-- R232: the launch's item for a core is picked up on it, and held before its first issue; once every core is prepared, R233
says whether the start time has already passed. -/
def gangPrepare (s : State) (l : Launch) (ck : Nat) : State :=
  match idleOf (s.core ck), freeSlot l with
  | some x, some j =>
    let s1 := pickUpItem s ck x l j (l.cores.findIdx (· == ck)) .prepared
    let base := (s1.ctx ck x).base
    let s2 := (unitArrives s1 ck).modCore ck (fun c => (l.presets.filter (fun r => r.core == ck)).foldl (applyPreset l.image.win base) c)
    s2.modLaunch l.id (fun y =>
      { y with prepared := ck :: y.prepared
               late := decide (y.prepared.length + 1 = y.cores.length) && decide (y.start < s.devTime y.pkg) })
  | _, _ => s

/-- R232: the 10 ms have passed and some core is not prepared. -/
def gangLate (s : State) (l : Launch) : Bool :=
  l.phase == .preparing && decide (l.prepared.length < l.cores.length) && decide (l.accepted + Config.gangTicks ≤ s.tick)

/-- GANG_CORE_PREPARATION (R232): core `ev.core` of the gang launch `ev.launch` is prepared, if it can be before 10 ms have passed. -/
def execGangCorePreparation (s : State) : Out :=
  match s.launch s.ev.launch with
  | none => .next s
  | some l =>
    let ck := s.ev.core
    if l.phase == .preparing && !l.frozen && !gangLate s l && l.cores.contains ck && !l.prepared.contains ck && coreOpen s ck && roomFor s ck l l.image.win then
      .next (gangPrepare s l ck)
    else .next s

/-- GANG_PREPARATION_TIMEOUT (R232): the launch is refused with STATUS 4 and no core is released. -/
def execGangPreparationTimeout (s : State) : Out :=
  match s.launch s.ev.launch with
  | none => .next s
  | some l =>
    if gangLate s l then .next (endLaunch ((members s l.id).foldl (fun s m => leave s m.1 m.2) s) l.id 4) else .next s

/-- R233: every core is prepared. -/
def gangReady (l : Launch) : Bool := l.phase == .preparing && decide (l.prepared.length = l.cores.length)

/-- GANG_RELEASE (R233): the contexts of all cores are released: on the first pulse at or after the start time in their package's
DEV_TIME, and after a late preparation on the next pulse that is common to all. -/
def execGangRelease (s : State) : Out :=
  match s.launch s.ev.launch with
  | none => .next s
  | some l =>
    if !gangReady l then .next s
    else
      let ms := (members s l.id).filter (fun m => (s.ctx m.1 m.2).status == .prepared && s.clocked (pkgOf m.1))
      let at_ := commonPulse s ms
      let s1 := ms.foldl (fun s m => s.modCtx m.1 m.2 (fun c => { c with status := .ready, edge := at_, startAt := some l.start })) s
      .next (s1.modLaunch l.id (fun y => { y with phase := .running }))

-- sluice

/-- R234, R235: cores of a launch with a member that its present sluice waits for, or that waits in it. -/
def sluiceCores (s : State) (l : Launch) : List Nat :=
  ((s.cores.filter (fun c => (coreMembers c.2 l.id).any (fun k => inTheSluice l.sluiceCount k.2))).map (·.1))

/-- R235: some core has reported its arrival, and every core with such a member has. -/
def sluiceGathered (s : State) (l : Launch) : Bool :=
  let here (ck : Nat) : Bool := match (s.core ck).sampled with | some (id, _) => id == l.id | none => false
  l.swapAt.isNone && (sluiceCores s l).all here && !(sluiceCores s l).isEmpty

/-- SLUICE_DECISION (R235): the swap of launch `ev.launch` is decided, with its time and verdict. -/
def execSluiceDecision (s : State) : Out :=
  match s.launch s.ev.launch with
  | none => .next s
  | some l =>
    if !sluiceGathered s l then .next s
    else
      let ok := (sluiceCores s l).all (fun ck => match (s.core ck).sampled with | some (_, b) => b | none => true)
      .next (s.modLaunch l.id (fun y => { y with swapAt := some (s.tick + Config.sluiceTicks l.pod, ok) }))

/-- R234, R235: the core has reported its arrival at the sluice of a launch with a member that waits in it. -/
def reportsSluice (c : Core) (launch : Nat) : Bool :=
  (match c.sampled with | some (id, _) => id == launch | none => false) && (coreMembers c launch).any (fun k => k.2.inSluice)

/-- R124: a core's banks are exchanged, the new back bank is as after reset and the L1 is invalidated. -/
def swapCore (s : State) (ck : Nat) : State :=
  (s.l1Flush ck).modCore ck (fun c => { c with front := c.back, back := [], sealed := false, sampled := none })

/-- SLUICE_SWAP (R124, R235): the decided swap of launch `ev.launch` takes place at its time on every core that reported
with a member that still waits and runs (R363), or SLUICE is raised there. -/
def execSluiceSwap (s : State) : Out :=
  match s.launch s.ev.launch with
  | none => .next s
  | some l =>
    match l.swapAt with
    | none => .next s
    | some (t, ok) =>
      if s.tick < t then .next s
      else
        let cores := (s.cores.filter (fun c => reportsSluice c.2 l.id && s.clocked (pkgOf c.1))).map (·.1)
        let ms := (members s l.id).filter (fun m => cores.contains m.1 && (s.ctx m.1 m.2).inSluice)
        if ok then
          let at_ := commonPulse s ms
          let s1 := cores.foldl swapCore s
          let s2 := ms.foldl (fun s m => s.modCtx m.1 m.2 (fun c => { c with edge := at_ })) s1
          .next (s2.modLaunch l.id (fun y => { y with sluiceCount := y.sluiceCount + 1, swapAt := none }))
        else
          let s1 := cores.foldl (fun s ck => s.modCore ck (fun c => { c with sampled := none })) s
          let s2 := s1.modLaunch l.id (fun y => { y with swapAt := none })
          .next (ms.foldl (fun s m => takeTrap s m.1 m.2 cSluice (s.ctx m.1 m.2).arch.pc 0) s2)

-- pre-emption

/-- R338 steps 1 and 2: a context is pre-empted, or will be as soon as its committing bundle has run to its checkpoint. -/
def preempt (s : State) (ck x : Nat) : State :=
  let c := s.ctx ck x
  if !c.resident || c.status == .resting then s
  else takePreempt (s.modCtx ck x (fun c => { c with preempt := true })) ck x

/-- PREEMPTION (R338): context `ev.ctx` of core `ev.core` is pre-empted. -/
def execPreemption (s : State) : Out := .next (preempt s s.ev.core s.ev.ctx)

/-- CONTEXT_SAVE (R338, R339): a context that has come to rest is saved. -/
def execContextSave (s : State) : Out := .next (settle s s.ev.core s.ev.ctx)

end Sys2Proof.Machine
end

