-- ==== Sys2Proof/Machine/Loader.lean ====
section
/-!
DEFINITION. The launch front end: the kernel image and its loader (R93 to R98), the launch descriptor and its checks (R227, R319,
R320), and the static share (R228).
-/

namespace Sys2Proof.Machine

-- the image

/-- Table 3.14: a section. -/
structure Section where
  type   : Nat
  number : Nat
  flags  : Nat
  offset : Nat
  size   : Nat
  body   : List Byte := []

/-- R93, R97: the armature's fields lie in their ranges and its reserved bits are zero. -/
def armatureOk (a : List Byte) : Bool :=
  fieldAt a 0 4 == 0x314B4C47 && fieldAt a 4 2 == 1 && decide (fieldAt a 6 2 < 4) &&
  decide (fieldAt a 0x10 1 ≤ 48) && decide (fieldAt a 0x11 1 ≤ 8) && decide (fieldAt a 0x12 1 ≤ 6) &&
  decide (fieldAt a 0x13 1 ≤ 8) && decide (fieldAt a 0x14 1 ≤ 4) && decide (fieldAt a 0x15 1 ≤ 8) &&
  fieldAt a 0x16 2 == 0 && (List.range 5).all (fun i => decide (fieldAt a (0x18 + i) 1 ≤ 4)) && fieldAt a 0x1D 3 == 0 &&
  fieldAt a 0x20 4 % 4096 == 0 && decide (fieldAt a 0x20 4 ≤ 1048576) &&
  decide (1 ≤ fieldAt a 0x24 4) && decide (fieldAt a 0x24 4 ≤ 65536) &&
  decide (1 ≤ fieldAt a 0x38 4) && decide (fieldAt a 0x38 4 ≤ 8192) &&
  decide (2 ≤ fieldAt a 0x3C 4) && decide (fieldAt a 0x3C 4 ≤ 64) && fieldAt a 0x40 64 == 0

/-- Table 3.13: the windows that an armature declares. -/
def armatureWindows (a : List Byte) : Windows :=
  { vregs := fieldAt a 0x10 1, tiles := fieldAt a 0x11 1, handles := fieldAt a 0x12 1, mxu := bitsOf (fieldAt a 6 2) 1 1 == 1
    latches := fieldAt a 0x13 1, queues := fieldAt a 0x14 1, tcount := fieldAt a 0x15 1, spad := fieldAt a 0x20 4
    bars := (List.range 5).map (fun i => fieldAt a (0x18 + i) 1) }

/-- Entry `i` of the section table. -/
def sectionAt (t : List Byte) (i : Nat) : Section :=
  { type := fieldAt t (16 * i) 2, number := fieldAt t (16 * i + 2) 2, flags := fieldAt t (16 * i + 4) 4
    offset := fieldAt t (16 * i + 8) 4, size := fieldAt t (16 * i + 12) 4 }

/-- R97: a section-table entry by itself. -/
def sectionOk (end_ : Nat) (x : Section) : Bool :=
  decide (1 ≤ x.type) && decide (x.type ≤ 6) && x.offset % 32 == 0 && decide (end_ ≤ x.offset) &&
  (if x.type = 3 then decide (x.number ≤ 255) && decide (x.flags ≤ 1) else x.number == 0 && x.flags == 0)

/-- R97: no two sections overlap. -/
def sectionsApart : List Section → Bool
  | [] => true
  | x :: t => t.all (fun y => decide (x.offset + x.size ≤ y.offset) || decide (y.offset + y.size ≤ x.offset)) && sectionsApart t

/-- Records of `n` bytes in a body. -/
def splitRecords (n : Nat) (b : List Byte) : List (List Byte) := (List.range (b.length / n)).map (fun i => (b.drop (n * i)).take n)

/-- R94, R95, R97: the body of a section against `count` bundles. A template section of no whole number of records is refused, and a
table image need only hold its header: bytes that a short one lacks read as zero, and bytes beyond are ignored (log entry 101). -/
def sectionBodyOk (count : Nat) (x : Section) : Bool :=
  if x.type = 1 then x.size == 32 * count
  else if x.type = 2 then x.size == (count + 7) / 8
  else if x.type = 3 then decide (16 ≤ x.size) && fieldAt x.body 4 12 == 0 && decide (1 ≤ fieldAt x.body 2 2) &&
    decide (fieldAt x.body 0 2 + fieldAt x.body 2 2 ≤ 1024)
  else if x.type = 4 then x.size % 176 == 0 &&
    (splitRecords 176 x.body).all (fun r => decide (8 ≤ fieldAt r 0 1) && decide (fieldAt r 0 1 ≤ 31))
  else if x.type = 5 then x.size % 64 == 0
  else x.size % 32 == 0

def ofType (t : Nat) (l : List Section) : List Section := l.filter (fun x => x.type == t)

/-- R94: the image of a checked armature and its sections. Several sections of one template TYPE follow one another, and of several
scope templates with one index the last counts (log entry 101). -/
def buildImage (a : List Byte) (l : List Section) : Image :=
  let body (t : Nat) : List Byte := (ofType t l).flatMap (·.body)
  let count := fieldAt a 0x38 4
  let init := (ofType 3 l).filter (fun x => x.flags == 1)
  { fuse := bitsOf (fieldAt a 6 2) 0 1 == 1
    entry := fieldAt a 8 4
    trapPc := fieldAt a 0xC 4
    win := armatureWindows a
    chunk := fieldAt a 0x24 4
    features := BitVec.ofNat 128 (fieldAt a 0x28 16)
    im := (List.range count).map (fun i =>
      (BitVec.ofNat 256 (fieldAt (body 1) (32 * i) 32), bitsOf (fieldAt (body 2) (i / 8) 1) (i % 8) 1 == 1))
    hasTable := !(ofType 3 l).isEmpty
    init := init.flatMap (·.body)
    hasInit := !init.isEmpty
    scopesT := (splitRecords 176 (body 4)).foldl (fun t r => t.set (fieldAt r 0 1) (r.drop 16)) []
    streamsT := splitRecords 64 (body 5)
    handlesT := splitRecords 32 (body 6) }

/-- R97: the checks on a whole image; its features are accepted in every package of the core set. -/
def imageOk (s : State) (pkgs : List Nat) (a : List Byte) (l : List Section) (i : Image) : Bool :=
  let n := i.im.length
  let code (p : Nat) : Bool := match i.im[p]? with | some w => !w.2 | none => false
  let feats (p : Nat) : Nat := ((s.pkg p).regs.get 0x20 0).toNat + ((s.pkg p).regs.get 0x28 0).toNat * 2 ^ 64
  l.all (sectionOk (0x80 + 16 * fieldAt a 0x3C 4)) && sectionsApart l && l.all (sectionBodyOk n) &&
  (ofType 1 l).length == 1 && (ofType 2 l).length == 1 && code i.entry &&
  (i.trapPc == 0xFFFFFFFF || code i.trapPc) && decide (((ofType 3 l).map (·.number)).Nodup) &&
  decide (((ofType 3 l).filter (fun x => x.flags == 1)).length ≤ 1) &&
  pkgs.all (fun p => (List.range 128).all (fun b => !i.features.getLsbD b || bitsOf (feats p) b 1 == 1))

/-- What the front end finds in memory: something, nothing that it accepts, or a page that migrates (R350). -/
inductive Got (α : Type) where
  | ok (a : α)
  | bad
  | wait

def Got.bind {α β : Type} (r : Got α) (f : α → Got β) : Got β :=
  match r with
  | .ok a => f a
  | .bad => .bad
  | .wait => .wait

/-- What passes a check. -/
def Got.check {α : Type} (b : Bool) (a : α) : Got α := if b then .ok a else .bad

/-- A read of a process by the front end. -/
def gotRead (s : State) (pkg pasid a n : Nat) : Got (List Byte) :=
  match procRead s pkg pasid a n with
  | .ok b => .ok b
  | .error 0 => .wait
  | .error _ => .bad

/-- R97: the bodies of all sections, or a fault. -/
def readSections (s : State) (pkg pasid base : Nat) : List Section → Got (List Section)
  | [] => .ok []
  | x :: t =>
    (gotRead s pkg pasid (base + x.offset) x.size).bind (fun b =>
      (readSections s pkg pasid base t).bind (fun l => .ok ({ x with body := b } :: l)))

/-- R93 to R97: the image at an address of a process, if the loader accepts it. -/
def loadImage (s : State) (pkg pasid base : Nat) (pkgs : List Nat) : Got Image :=
  (gotRead s pkg pasid base 0x80).bind (fun a => (Got.check (armatureOk a) a).bind (fun a =>
    let n := fieldAt a 0x3C 4
    (gotRead s pkg pasid (base + 0x80) (16 * n)).bind (fun t =>
      let l := (List.range n).map (sectionAt t)
      (Got.check (l.all (sectionOk (0x80 + 16 * n))) l).bind (fun l =>
        (readSections s pkg pasid base l).bind (fun l =>
          let i := buildImage a l
          Got.check (imageOk s pkgs a l i) i)))))

-- the descriptor

/-- R227: the cores that a core set names: a package bitmap, then a pattern for each of its packages. -/
def readCoreSet (s : State) (pkg pasid a : Nat) : Got (List (Nat × BitVec 512)) :=
  (gotRead s pkg pasid a 64).bind (fun b =>
    let pk := bitNums (BitVec.ofNat 512 (leNat b))
    (gotRead s pkg pasid (a + 64) (64 * pk.length)).bind (fun c =>
      .ok (pk.zipIdx.map (fun p => (p.1, BitVec.ofNat 512 (fieldAt c (64 * p.2) 64))))))

/-- R353: the cores of a core set that are in service, in the order of packages and core numbers. -/
def coreList (s : State) (pkg : Nat) (l : List (Nat × BitVec 512)) : List Nat :=
  let k := s.pkg pkg
  l.flatMap (fun p => ((bitNums p.2).map (fun c => 512 * p.1 + c)).filter (fun ck =>
    !k.retCores.contains ck && !k.retDies.contains (dieOf ck)))

/-- R228: the share of each die of a core set. -/
def staticShare (cores : List Nat) (n : Nat) : Tbl (Nat × Nat) :=
  let dies := (cores.map dieOf).eraseDups
  let upTo (d : Nat) : Nat := (cores.filter (fun c => decide (dieOf c < d))).length
  dies.map (fun d => (d, (n * upTo d / cores.length, n * upTo (d + 1) / cores.length)))

/-- Table 8.6: presets, or none where one may not stand (R233). -/
def readPresets (w : Windows) (cores : List Nat) (n : Nat) (bs : List Byte) : Option (List Preset) :=
  let one (i : Nat) : Option Preset :=
    let a := fieldAt bs (16 * i) 8
    let b := fieldAt bs (16 * i + 8) 8
    let r : Preset :=
      { core := bitsOf b 32 9 * 512 + a % 512, offset := a / 2 ^ 32, count := bitsOf a 16 16 + 1, full := bitsOf a 9 1 == 1
        value := BitVec.ofNat 32 (b % 2 ^ 32) }
    if bitsOf a 10 6 != 0 || b / 2 ^ 41 != 0 || r.offset % 4 != 0 || !cores.contains r.core ||
      decide (w.spad < r.offset + 4 * r.count) then none else some r
  let l := (List.range n).map one
  if l.all (·.isSome) then some (l.filterMap id) else none

/-- What the front end makes of a LAUNCH command: a launch; or a STATUS, whether the completion record is written, whether
the queue takes QERR 4, and the words of a refused INIT table; or nothing yet, since a page migrates (R350). -/
inductive Front where
  | go (l : Launch)
  | refused (l : Launch) (status : Nat) (withRecord qerr : Bool)
  | wait

/-- R320 checks 2 to 5: the image, the INIT table, the gang's N and CHUNK, the presets. -/
def frontImage (s : State) (l : Launch) (pkgs : List Nat) (image presets pcount : Nat) : Front :=
  match loadImage s l.pkg l.pasid image pkgs with
  | .wait => .wait
  | .bad => .refused l 1 true false
  | .ok i =>
    let l1 := { l with image := i, ranges := if l.gang then [] else staticShare l.cores l.n }
    match (if i.hasInit then tableRefusal (i.features.getLsbD 1) false i.init else none) with
    | some f =>
      .refused { l1 with refusal := (0, f.code % 256 + 5 * 2 ^ 8 + f.kind % 256 * 2 ^ 24 + f.index % 1024 * 2 ^ 32 + f.group % 8 * 2 ^ 42) }
        2 true false
    | none =>
      if !l.gang then .go l1
      else if l.n != l.cores.length || i.chunk != 1 then .refused l1 3 true false
      else
        match gotRead s l.pkg l.pasid presets (16 * pcount) with
        | .wait => .wait
        | .bad => .refused l1 5 true false
        | .ok b =>
          match readPresets i.win l.cores pcount b with
          | none => .refused l1 5 true false
          | some r => .go { l1 with presets := r, phase := .preparing }

/-- The fields of a launch descriptor (Table 14.8), for a command of a queue with a priority. -/
def launchOfDesc (s : State) (p prio : Nat) (c : QCmd) (bs : List Byte) : Launch :=
  let w := fieldAt bs 0x10 8
  let o := fieldAt bs 0x2C 4
  { id := s.nextLaunch
    pkg := p
    desc := c.word 5
    pasid := c.pasid
    cmd := c
    n := w % 2 ^ 48
    prio := min (bitsOf w 48 7) prio
    gang := bitsOf w 55 1 == 1
    pod := bitsOf w 56 1 == 1
    policy := bitsOf w 57 2
    start := fieldAt bs 0x18 8
    oneshot := if o = 0 then Config.oneshotDefault else o
    args := (List.range 3).map (fun i => BitVec.ofNat 64 (fieldAt bs (0x30 + 8 * i) 8))
    frameBase := fieldAt bs 0x48 8
    frameStride := fieldAt bs 0x50 8
    recBase := fieldAt bs 0x58 8
    recs := fieldAt bs 0x60 4
    saveBase := fieldAt bs 0x68 8
    saveStride := fieldAt bs 0x70 8
    scopeBase := fieldAt bs 0x78 8
    scopeStride := fieldAt bs 0x80 8
    completion := fieldAt bs 0x88 8
    accepted := s.tick
    stole := s.devTime p / 2000 }

/-- R320 check 1: what refuses a descriptor that has been read, given the packages of its core set and its cores in service. -/
def descriptorBad (s : State) (p : Nat) (bs : List Byte) (l : Launch) (pkgs cores : List Nat) : Bool :=
  l.policy == 3 || fieldAt bs 0x10 8 / 2 ^ 59 != 0 || fieldAt bs 0x90 0x70 != 0 || l.pod != decide (1 < pkgs.length) ||
  cores.isEmpty || pkgs.any (fun q => !s.reaches p q) || pkgs.headD p != p

/-- R319, R320, R346, R375: the front end reads and checks a launch. -/
def front (s : State) (p prio : Nat) (c : QCmd) : Front :=
  let none_ : Launch := { id := s.nextLaunch, pkg := p, desc := c.word 5, pasid := c.pasid, cmd := c }
  if !s.pasidValid p c.pasid then .refused none_ 7 false false
  else if c.word 5 % 64 != 0 then .refused none_ 7 false true
  else
    match gotRead s p c.pasid (c.word 5) 256 with
    | .wait => .wait
    | .bad => .refused none_ 7 false true
    | .ok bs =>
      let l := launchOfDesc s p prio c bs
      if l.completion % 64 != 0 then .refused l 7 false false
      else
        match readCoreSet s p c.pasid (fieldAt bs 8 8) with
        | .wait => .wait
        | .bad => .refused l 7 false true
        | .ok set =>
          let cores := coreList s p set
          let l1 := { l with cores := cores }
          if descriptorBad s p bs l1 (set.map (·.1)) cores then .refused l1 7 true false
          else frontImage s l1 (set.map (·.1)) (fieldAt bs 0 8) (fieldAt bs 0x20 8) (fieldAt bs 0x28 4)

/-- R227, R230, R320: a launch is held, or completes at once with no items, or is refused. -/
def startLaunch (s0 : State) (p prio : Nat) (c : QCmd) : State :=
  let s := { s0 with nextLaunch := s0.nextLaunch + 1 }
  match front s0 p prio c with
  | .wait => s0
  | .refused l status withRecord qerr =>
    let s1 := reportLaunch s l status withRecord
    if qerr then queueError s1 p c.q 4 else s1
  | .go l => launchDone { s with launches := s.launches ++ [l] } l.id

end Sys2Proof.Machine
end

