-- ==== Sys2Proof/Machine/Bar.lean ====
section
/-!
DEFINITION. BAR0 (R311 to R313): the registers as they read and what writes to them do, enabling and disabling the device, firmware
update as the driver starts it (R325), device time (R330), telemetry as it reads (R370 to R372), and the retirement map's log
(R369).
-/

namespace Sys2Proof.Machine

-- telemetry

/-- Table 16.5: MAP of physical core `j` of a die: the logical core that it holds. -/
def mapWord (k : Pkg) (d j : Nat) : Nat :=
  match (List.range 128).find? (fun c => !k.unmapped.contains (128 * d + c) && k.physOf.get (128 * d + c) c == j) with
  | some c => 2 ^ 63 + c
  | none => 0

/-- Table 16.5: LANES of an Otcor port. -/
def lanesWord (o : Port) : Nat :=
  (match o.spare with | some l => 255 - 2 ^ (l % 8) + l % 8 * 2 ^ 8 + 2 ^ 12 | none => 255) + (if o.out then 2 ^ 13 else 0)

/-- R372: word `w` of the event record in log slot `n`. -/
def eventWord (k : Pkg) (n w : Nat) : Nat :=
  let total := k.tel.get 0x100000 0
  let back := (total + 4096 - 1 - n) % 4096
  match k.events[back]? with
  | none => 0
  | some (code, source, detail, time) =>
    if total ≤ n then 0
    else if w = 0 then total - 1 - back
    else if w = 1 then code.toNat + source.toNat * 2 ^ 16
    else if w = 2 then detail.toNat
    else time.toNat

/-- R370 to R372: an 8-byte word of telemetry. -/
def telWord (s : State) (p off : Nat) : Nat :=
  let k := s.pkg p
  if off = 0x100008 then (if s.tick / 2 < k.bootCycle + Config.powerCycles then 0 else (Config.freeReading s.free).toNat)
  else if off = 0x100028 then k.leaf
  else if off = 0x100030 then k.repairs.length
  else if 0x110000 ≤ off ∧ off < 0x114000 ∧ off % 0x1000 = 0x48 then (Config.freeReading (2 ^ 32 + s.free)).toNat
  else if 0x140000 ≤ off ∧ off < 0x162000 ∧ off % 0x100 = 0x48 then
    mapWord k ((off - 0x140000) / 0x100 / 136) ((off - 0x140000) / 0x100 % 136)
  else if 0x170000 ≤ off ∧ off < 0x172000 ∧ off % 0x100 = 0x18 then lanesWord (k.ports.get ((off - 0x170000) / 0x100) {})
  else if 0x180000 ≤ off ∧ off < 0x1A0000 then eventWord k ((off - 0x180000) / 32) (off % 32 / 8)
  else k.tel.get off 0

-- registers

/-- Table 14.3: the bits that the part offers. -/
def featOffer : Nat := 0x3F

/-- R286: a word of the selection table. -/
def selWord (s : State) (p off : Nat) : Nat := leNat ((List.range 8).map (fun i => BitVec.ofNat 8 (selByte (s.pkg p).regs (off - 0x100 + i))))

/-- Table 14.2, R370: an 8-byte word of BAR0 as it reads; offsets not listed read zero. -/
def regWord (s : State) (p off : Nat) : Nat :=
  let k := s.pkg p
  if 0x100000 ≤ off then telWord s p off
  else if off = 0x00 then (if k.enabled then 1 else 0) + k.enableErr * 256
  else if off = 0x10 then featOffer
  else if off = 0x48 then (k.regs.get 0x48 1000000).toNat
  else if off = 0x50 then 100000
  else if off = 0x60 then s.devTime p
  else if off = 0x68 then k.frac.toNat
  else if 0x100 ≤ off ∧ off < 0x240 then selWord s p off
  else if off = 0x410 then k.fwState + (if k.fwHalf then 4 else 0) + k.fwCode * 256
  else if off = 0x418 then (k.fwVer.getD (Config.freeVersion 0)).toNat
  else (k.regs.get off 0).toNat

/-- A register of BAR0 takes a value. -/
def setReg (s : State) (p off v : Nat) : State := s.modPkg p (fun k => { k with regs := k.regs.set off (BitVec.ofNat 64 v) })

/-- DEV_CTRL.ENABLE. -/
def State.enable (s : State) (p : Nat) : Bool := ((s.pkg p).regs.get 8 0).getLsbD 0

/-- R312: the queue table lies where it may. -/
def qtabOk (s : State) (b : Nat) (p : Nat) : Bool :=
  b % 4096 == 0 && decide (0x1001000 ≤ b) && decide (b + 2 ^ 20 ≤ 2 ^ 39) &&
  !s.reserved (.hbm (fabric p b)) && !s.reserved (.hbm (fabric p (b + 2 ^ 20 - 1)))

/-- R312, R313: a write of 1 to ENABLE. -/
def enableDevice (s : State) (p : Nat) : State :=
  let k := s.pkg p
  if s.enable p || k.enabled then s
  else if !s.accepts p 0 then s.modPkg p (fun k => { k with enableErr := 1 })
  else if !qtabOk s (k.regs.get 0x40 0).toNat p then s.modPkg p (fun k => { k with enableErr := 2 })
  else (setReg s p 8 1).modPkg p (fun k => { k with enabled := true, enableErr := 0 })

/-- R313 step 4: every queue-table entry's ENABLE is cleared. -/
def clearQueues (s : State) (p : Nat) : State :=
  let b := qentry s p 0
  let hit := s.mem.filter (fun c => decide (b ≤ c.1) && decide (c.1 < b + 2 ^ 20) && (c.1 - b) % 32 == 15 && c.2.getLsbD 7)
  hit.foldl (fun s c => s.perform (.hbm c.1) [c.2 &&& 0x7F]) s

/-- R313 step 5: EN of every receive ring and transmit ring is cleared. -/
def clearRings (k : Pkg) : Pkg :=
  { k with regs := k.regs.map (fun r =>
      if (0x90000 ≤ r.1 ∧ r.1 < 0xD0000 ∧ r.1 % 64 = 0x20) ∨ r.1 = 0xD0008 ∨ r.1 = 0xD0108 then (r.1, r.2 &&& BitVec.ofNat 64 (2 ^ 63 - 1))
      else r) }

/-- R313 steps 3 to 5: once the held launches have ended, the host interface stops. -/
def finishDisable (s : State) (p : Nat) : State :=
  let k := s.pkg p
  if s.enable p || !k.enabled || !k.started.isEmpty || s.launches.any (fun l => l.pkg == p) then s
  else (clearQueues s p).modPkg p (fun k => { clearRings k with triggers := [], due := [], pending := [], slots := [], empties := [], enabled := false })

/-- R313 steps 1 and 2: a write of 0 to ENABLE. -/
def disableDevice (s : State) (p : Nat) : State :=
  if !s.enable p then s
  else
    let s1 := setReg s p 8 0
    finishDisable ((s1.launches.filter (fun l => l.pkg == p)).foldl (fun s l => abortLaunch s l.id 6) s1) p

/-- R330: DEV_TIME is set, unless a launch is held. -/
def setTime (s : State) (p v : Nat) : State :=
  if s.launches.any (fun l => l.pkg == p || l.pkgs.contains p) then s
  else s.setUnits p (v * timeUnit) (s.pkg p).pace

/-- R325 step 1: a write of LOAD. -/
def loadFirmware (s : State) (p : Nat) : State :=
  let k := s.pkg p
  if k.fwState = 0 ∨ k.fwState = 3 then s.modPkg p (fun k => { k with fwState := 1, fwCode := 0, standby := none }) else s

/-- R325 step 3: a write of SWITCH. -/
def switchFirmware (s : State) (p : Nat) : State :=
  s.modPkg p (fun k => if k.fwState = 2 ∧ k.handover = 0 then { k with handover := 1 } else k)

/-- R327: fields of a match rule's word. -/
def ruleMask (o : Nat) : Nat := if o = 0x40 then 2 ^ 38 - 2 ^ 24 + (2 ^ 12 - 1) else if 0x48 ≤ o then 0 else 2 ^ 64 - 1

/-- R328: fields of a ring descriptor's word that software writes. -/
def ringMask (o : Nat) : Nat :=
  if o = 0x20 then 2 ^ 63 + (2 ^ 52 - 2 ^ 32) + (2 ^ 28 - 2 ^ 16) + (2 ^ 12 - 2 ^ 8) + (2 ^ 5 - 1) else 2 ^ 64 - 1

def masked (v m : Nat) : Nat := v % 2 ^ 64 &&& m

/-- R98, R327: a write to a match rule. The rule comes into force whole, with the write of its last word (log entry 102). -/
def writeRule (s : State) (p off v : Nat) : State :=
  let o := (off - 0x10000) % 128
  if o = 0x40 ∧ bitsOf v 24 1 = 1 ∧ !s.accepts p 3 then s
  else
    let s1 := setReg s p off (masked v (ruleMask o))
    if o != 0x40 then s1
    else s1.modPkg p (fun k => { k with rules := (List.range 9).foldl (fun t i =>
      t.set (off - 0x40 + 8 * i) (k.regs.get (off - 0x40 + 8 * i) 0)) k.rules })

/-- R98, R328: a write to a receive ring's descriptor; setting EN starts FRAMES from 0. -/
def writeRing (s : State) (p off v : Nat) : State :=
  let o := off % 64
  let old := regWord s p off
  if 0x28 ≤ o then s
  else if o = 0x20 ∧ bitsOf v 63 1 = 1 then
    if !s.accepts p 3 then s
    else
      let s1 := setReg s p off (masked v (ringMask o))
      if bitsOf old 63 1 = 1 then s1
      else
        let other (n : Nat) : Bool := n != (off - 0x90000) / 64
        (setReg s1 p (off + 8) 0).modPkg p (fun k =>
          { k with publish := k.publish.filter (fun y => other y.ring), rx := k.rx.filter (fun y => other y.ring) })
  else setReg s p off (masked v (ringMask o))

/-- R98, R331, Table 14.12: a write to a transmit ring's register. -/
def writeTx (s : State) (p off v : Nat) : State :=
  let b := off / 0x100 * 0x100
  let ctl := regWord s p (b + 8)
  let on := bitsOf ctl 63 1 == 1
  if off % 0x100 = 0 then (if on then s else setReg s p off (v / 16 * 16))
  else if off % 0x100 = 8 then
    if bitsOf v 63 1 = 1 ∧ !s.accepts p 3 then s
    else
      let pasid := if on then bitsOf ctl 32 20 else bitsOf v 32 20
      let s1 := setReg s p off (bitsOf v 63 1 * 2 ^ 63 + pasid * 2 ^ 32)
      if bitsOf v 63 1 = 1 ∧ !on then setReg s1 p (b + 0x18) (regWord s p (b + 0x10)) else s1
  else if off % 0x100 = 0x10 then
    (if 256 < (v % 2 ^ 32 + 2 ^ 32 - regWord s p (b + 0x18)) % 2 ^ 32 then s else setReg s p off (v % 2 ^ 32))
  else s

/-- R311: a write to eight bytes of the selection table: bytes other than 1 to 5 are ignored. -/
def writeSel (s : State) (p off v : Nat) : State :=
  let byte (i : Nat) : Byte :=
    let n := bitsOf v (8 * i) 8
    BitVec.ofNat 8 (if 1 ≤ n ∧ n ≤ 5 then n else selByte (s.pkg p).regs (off - 0x100 + i))
  setReg s p off (leNat ((List.range 8).map byte))

/-- R311 to R313, R325, R330, R331: an 8-byte write to BAR0. -/
def writeReg (s : State) (p off v : Nat) : State :=
  let free := !s.enable p && !(s.pkg p).enabled
  if off % 8 ≠ 0 then s
  else if off = 0x08 then (if v % 2 = 1 then enableDevice s p else disableDevice s p)
  else if off = 0x20 then (if free then setReg s p off (masked v featOffer) else s)
  else if off = 0x40 then (if free then setReg s p off v else s)
  else if off = 0x48 then (if 1000 ≤ v ∧ v < 2 ^ 32 then setReg s p off v else s)
  else if off = 0x70 then setReg s p off (masked v (2 ^ 28 - 2 ^ 16 + 3))
  else if off = 0x78 then setTime s p v
  else if 0x100 ≤ off ∧ off < 0x240 then writeSel s p off v
  else if off = 0x400 then setReg s p off v
  else if off = 0x408 then
    let s1 := if bitsOf v 0 1 = 1 then loadFirmware s p else s
    if bitsOf v 1 1 = 1 then switchFirmware s1 p else s1
  else if 0x10000 ≤ off ∧ off < 0x90000 then writeRule s p off v
  else if 0x90000 ≤ off ∧ off < 0xD0000 then writeRing s p off v
  else if 0xD0000 ≤ off ∧ off < 0xD0200 then writeTx s p off v
  else s

/-- The registers answer: the package is powered and not held in recovery (R363, R365, R367). -/
def State.answers (s : State) (p : Nat) : Bool :=
  match s.pkgs.find p with | some k => k.running && k.recovery == 0 | none => false

/-- An event of package `ev.pkg` while its host port answers. -/
def hostEvent (s : State) (f : Nat → State) : Out := if s.answers s.ev.pkg then .next (f s.ev.pkg) else .next s

/-- DEVICE_ENABLE (R312): the driver writes 1 to ENABLE. -/
def execDeviceEnable (s : State) : Out := hostEvent s (enableDevice s)
/-- DEVICE_DISABLE (R313): the driver writes 0 to ENABLE. -/
def execDeviceDisable (s : State) : Out := hostEvent s (disableDevice s)
/-- DEV_TIME_READ (R311, R330): the host reads DEV_TIME, which latches DEV_FRAC. -/
def execDevTimeRead (s : State) : Out :=
  hostEvent s (fun p => s.modPkg p (fun k => { k with frac := s.devFrac p, hostRead := leBytes 8 (s.devTime p) }))
/-- TIME_SET (R330): the driver writes `ev.val` to TIME_SET. -/
def execTimeSet (s : State) : Out := hostEvent s (fun p => setTime s p s.ev.val)
/-- FW_LOAD (R325). -/
def execFwLoad (s : State) : Out := hostEvent s (loadFirmware s)
/-- FW_SWITCH (R325). -/
def execFwSwitch (s : State) : Out := hostEvent s (switchFirmware s)
/-- REGISTER_WRITE (R311): the host writes `ev.val` to the 8 bytes of BAR0 at `ev.addr`. -/
def execRegisterWrite (s : State) : Out := hostEvent s (fun p => writeReg s p s.ev.addr (s.ev.val % 2 ^ 64))
/-- RING_ENABLE (R328): the driver sets EN of receive ring `ev.num`. -/
def execRingEnable (s : State) : Out :=
  hostEvent s (fun p =>
    let off := 0x90000 + 64 * (s.ev.num % 4096) + 0x20
    writeRing s p off (regWord s p off % 2 ^ 63 + 2 ^ 63))
/-- TX_ENABLE (R331): the driver sets EN of the transmit ring of port `ev.num`. -/
def execTxEnable (s : State) : Out :=
  hostEvent s (fun p =>
    let off := 0xD0008 + 0x100 * (s.ev.num % 2)
    writeTx s p off (regWord s p off % 2 ^ 63 + 2 ^ 63))
/-- TXPROD (R331): software writes `ev.val` to TXPROD of port `ev.num`. -/
def execTxprod (s : State) : Out := hostEvent s (fun p => writeTx s p (0xD0010 + 0x100 * (s.ev.num % 2)) s.ev.val)

-- the repair log

/-- R369: actions of the repair log. -/
def rCoreRetired : Nat := 1
def rSpareMapped : Nat := 2
def rPhysBad : Nat := 3
def rRowSpared : Nat := 4
def rBankSpared : Nat := 5
def rLaneSpared : Nat := 6
def rPortOut : Nat := 7
def rPortIn : Nat := 8
def rDieRetired : Nat := 9
def rVersionRaised : Nat := 10

/-- Leaves of the identity key (R367). -/
def leafCount : Nat := 2 ^ 40

/-- R369: the log has room for a record; R367: which takes a leaf for its signature. -/
def logRoom (s : State) (p : Nat) : Bool :=
  decide ((s.pkg p).repairs.length < Config.repairRecords) && decide ((s.pkg p).leaf < leafCount)

/-- R367: the next leaf is used; once 2^40 − 2^20 are, event 0x0042 is raised. -/
def useLeaf (s : State) (p : Nat) : State :=
  let s1 := s.modPkg p (fun k => { k with leaf := k.leaf + 1 })
  if (s.pkg p).leaf + 1 < leafCount - 2 ^ 20 || (s.pkg p).leafWarned then s1
  else (s1.modPkg p (fun k => { k with leafWarned := true })).event p 0x0042 0 0

/-- R368: a digest of a package. -/
def digestBytes (p kind : Nat) : List Byte := (List.range 32).map (Config.freeDigest p kind)

/-- R368, R369: the head digest of a package's repair chain. -/
def repairHead (p : Nat) (l : List Repair) : BitVec 256 :=
  match l.getLast? with
  | some r => r.digest
  | none => BitVec.ofNat 256 (leNat (digestBytes p 2))

/-- R369: the record of a repair: its digest covers the previous record's, and it is signed with the next leaf. -/
def repairRecord (s : State) (p action what with_ die : Nat) : Repair :=
  { action := action, what := what, with_ := with_, die := die
    digest := Config.freeChain (repairHead p (s.pkg p).repairs) action what with_ die, leaf := (s.pkg p).leaf }

/-- R369, R372: a repair record is appended, and its event raised; a full log raises 0x0043. -/
def logRepair (s : State) (p action what : Nat) (with_ die : Nat := 0) : State :=
  if !logRoom s p then s.event p 0x0043 0 0
  else
    ((useLeaf s p).modPkg p (fun k => { k with repairs := k.repairs ++ [repairRecord s p action what with_ die] })).event p 0x0021
      (what % 65536) (s.pkg p).repairs.length

end Sys2Proof.Machine
end

