-- ==== Sys2Proof/Machine/Queue.lean ====
section
/-!
DEFINITION. Queues (R314 to R318, R375): notifies, polling-slot visits, the trigger table, the five commands, the queue mapper (R321,
R322) and the firmware's frames (R323, R325), and the host's window onto HBM.
-/

namespace Sys2Proof.Machine

-- queue entries

/-- Table 14.4: an entry of the queue table. -/
structure QEntry where
  ring     : Nat
  enable   : Bool
  pasid    : Nat
  ceil     : Nat
  prio     : Nat
  logSize  : Nat
  consAddr : Nat
  deriving DecidableEq, Repr

/-- The entry of a queue as HBM holds it. -/
def queueEntry (s : State) (p q : Nat) : QEntry :=
  let e := qentry s p q
  let w (o : Nat) : Nat := Mem.nat s.mem (e + o) 8
  { ring := w 0, enable := bitsOf (w 8) 63 1 == 1, pasid := bitsOf (w 8) 32 20, ceil := bitsOf (w 8) 16 7, prio := bitsOf (w 8) 8 7
    logSize := bitsOf (w 8) 0 5, consAddr := w 0x10 }

/-- R315: consumer and producer index of a queue. -/
def State.queue (s : State) (p q : Nat) : Queue := (s.pkg p).queues.get q {}

/-- R321: an enabled queue that has commands not yet accepted. -/
def runnable (s : State) (p q : Nat) : Bool := (queueEntry s p q).enable && (s.queue p q).cons != (s.queue p q).prod

def bound (s : State) (p q : Nat) : Bool := (s.pkg p).slots.any (fun x => x.2 == q)

/-- R314: what follows when a queue's entry has been written: a queue newly enabled starts at index 0, one newly disabled
loses its slot. -/
def queueWritten (s : State) (p q : Nat) (before : Bool) : State :=
  let now := (queueEntry s p q).enable
  if before == now then s
  else if now then s.modPkg p (fun k => { k with queues := k.queues.erase q, empties := k.empties.erase q })
  else s.modPkg p (fun k => { k with slots := k.slots.filter (fun x => x.2 != q), pending := k.pending.filter (fun x => x.q != q) })

/-- A write of ENABLE to a queue's entry. -/
def writeEnable (s : State) (p q : Nat) (on : Bool) : State :=
  let e := qentry s p q
  let w := Mem.nat s.mem (e + 8) 8
  let before := (queueEntry s p q).enable
  queueWritten (s.perform (.hbm (e + 8)) (leBytes 8 (w % 2 ^ 63 + (if on then 2 ^ 63 else 0)))) p q before

/-- QUEUE_ENABLE (R314): the driver sets ENABLE of queue `ev.num`. -/
def execQueueEnable (s : State) : Out := hostEvent s (fun p => writeEnable s p (s.ev.num % 32768) true)
/-- QUEUE_DISABLE (R314): the driver clears it. -/
def execQueueDisable (s : State) : Out := hostEvent s (fun p => writeEnable s p (s.ev.num % 32768) false)

/-- Queues whose table entries a range of HBM addresses touches. -/
def queuesIn (s : State) (p a n : Nat) : List Nat :=
  let b := ((s.pkg p).regs.get 0x40 0).toNat
  if n = 0 ∨ a + n ≤ b ∨ b + 2 ^ 20 ≤ a then []
  else
    let lo := (max a b - b) / 32
    let hi := (min (a + n) (b + 2 ^ 20) - 1 - b) / 32
    (List.range (hi + 1 - lo)).map (fun i => lo + i)

/-- R333: SEQ differs from DONE. -/
def svcOpen (s : State) (p : Nat) : Bool := (s.pkg p).svc.isSome || s.hbmWord p 0x1000080 != s.hbmWord p 0x10000A0

/-- R333: a write of the request's words while the previous request is not done. -/
def noteEarly (s : State) (p a n : Nat) : State :=
  if svcOpen s p && decide (a < 0x10000A0) && decide (0x1000080 < a + n) then s.modPkg p (fun k => { k with svcEarly := true }) else s

/-- R332, Table 15.1: the bits of the byte at a device physical address that software writes: all outside the device block, and there
those of RW fields; the rest reads as the device leaves it (R9). -/
def windowMask (a : Nat) : Byte :=
  let o := a - 0x1000000
  if a < 0x1000000 ∨ 0x1001000 ≤ a then 0xFF
  else if o < 0x80 then (if o % 32 < 0x10 then 0xFF else if o % 32 = 0x10 then 0x1F else 0)
  else if o < 0x89 ∨ (0x90 ≤ o ∧ o < 0xA0) then 0xFF
  else 0

/-- What a write of bytes through BAR4 leaves at an address. -/
def windowBytes (s : State) (p a : Nat) (bs : List Byte) : List Byte :=
  maskBytes (Mem.bytes s.mem (fabric p a) bs.length) bs ((List.range bs.length).map (fun i => windowMask (a + i)))

/-- R310, R332, Table 14.1: a write through BAR4 performs at its home, in the bits that software writes. -/
def writeWindow (s : State) (p a : Nat) (bs : List Byte) : State :=
  if 2 ^ 39 < a + bs.length || s.reserved (.hbm (fabric p a)) then s
  else
    let qs := (queuesIn s p a bs.length).map (fun q => (q, (queueEntry s p q).enable))
    qs.foldl (fun s q => queueWritten s p q.1 q.2) ((noteEarly s p a bs.length).perform (.hbm (fabric p a)) (windowBytes s p a bs))

/-- BAR4_WINDOW_ACCESS (Table 14.1): the host writes `ev.bytes` at `ev.addr` of the package's HBM, or, with `ev.flag` clear, reads
`ev.num` bytes there. -/
def execBar4WindowAccess (s : State) : Out :=
  hostEvent s (fun p =>
    if s.ev.flag then writeWindow s p s.ev.addr s.ev.bytes
    else if 2 ^ 39 < s.ev.addr + s.ev.num || s.reserved (.hbm (fabric p s.ev.addr)) then s
    else s.modPkg p (fun k => { k with hostRead := Mem.bytes s.mem (fabric p s.ev.addr) s.ev.num }))

-- notifies

/-- R315: a notify with producer index `n`. -/
def notify (s : State) (p q n : Nat) : State :=
  let e := queueEntry s p q
  let k := s.queue p q
  if !s.enable p || !e.enable || decide ((k.prod + 2 ^ 32 - n) % 2 ^ 32 < 2 ^ 31) then s
  else if 2 ^ e.logSize < (n + 2 ^ 32 - k.cons) % 2 ^ 32 then queueError s p q 1
  else s.modPkg p (fun y => { y with queues := y.queues.set q { k with prod := n }, empties := y.empties.erase q })

/-- NOTIFY (R315): the 32-bit word `ev.val` is written at offset `ev.addr` of notify page `ev.num`; with `ev.flag`, the access is a
write of another size, or a read of `ev.idx` bytes, which returns zeros. -/
def execNotify (s : State) : Out :=
  hostEvent s (fun p =>
    if s.ev.flag then (if s.ev.idx = 0 then s else s.modPkg p (fun k => { k with hostRead := zeros s.ev.idx }))
    else if s.ev.addr = 0 then notify s p (s.ev.num % 32768) (s.ev.val % 2 ^ 32) else s)

-- accepting commands

def QCmd.op (c : QCmd) : Nat := c.word 0 % 256
def QCmd.trg (c : QCmd) : Bool := bitsOf (c.word 0) 9 1 == 1
def QCmd.wait (c : QCmd) : Bool := bitsOf (c.word 0) 8 1 == 1

/-- R316, R375: what makes a command BAD_COMMAND. -/
def badCommand (c : QCmd) : Bool :=
  decide (4 < c.op) || c.word 0 / 2 ^ 11 != 0 || (c.trg && !c.wait) ||
  (c.wait && c.word 1 % 8 != 0) || (bitsOf (c.word 0) 10 1 == 1 && c.word 3 % 8 != 0) || (c.op == 2 && c.word 5 % 8 != 0)

/-- R316, R317: a command's condition: `none` where its counter word faults. -/
def condition (s : State) (p : Nat) (c : QCmd) : Option Bool :=
  if !c.wait then some true
  else
    match procRead s p c.pasid (c.word 1) 8 with
    | .ok b => some (decide (c.word 2 ≤ leNat b))
    | .error 0 => some false
    | .error _ => none

/-- R315, R317, R321, R375: a command is accepted: started, or moved to the trigger table; the consumer index is written. With the last
command the queue ceases to be runnable. -/
def acceptCommand (s : State) (p q : Nat) (c : QCmd) (start : Bool) : State :=
  let k := s.queue p q
  let n := (k.cons + 1) % 2 ^ 32
  let s1 := s.modPkg p (fun y =>
    { y with queues := y.queues.set q { k with cons := n }
             empties := if n = k.prod then y.empties.set q s.tick else y.empties
             started := if start then y.started ++ [c] else y.started
             triggers := if start then y.triggers else y.triggers ++ [c] })
  procWrite s1 p c.pasid (queueEntry s p q).consAddr (leBytes 8 n) (some q)

/-- The command at the head of a queue with commands not yet accepted, where its ring can be read. -/
def headCmd (s : State) (p q : Nat) : Option QCmd :=
  let e := queueEntry s p q
  let k := s.queue p q
  if k.cons = k.prod then none
  else
    match procRead s p e.pasid (e.ring + 64 * (k.cons % 2 ^ e.logSize)) 64 with
    | .ok b => some { q := q, pasid := e.pasid, words := (List.range 8).map (fun i => BitVec.ofNat 64 (fieldAt b (8 * i) 8)) }
    | .error _ => none

/-- R322: where a queue stands in the round of its priority: by its slot, or after all slots. -/
def slotKey (s : State) (p q : Nat) : Nat :=
  match (s.pkg p).slots.find? (fun x => x.2 == q) with
  | some x => x.1
  | none => 1024 + q

/-- R322: one queue is served before another: greater priority first, then in turn after the one served last. -/
def servedBefore (s : State) (p : Nat) (last : Tbl Nat) (a b : Nat) : Bool :=
  let pa := (queueEntry s p a).prio
  let pb := (queueEntry s p b).prio
  let turn (q : Nat) : Nat := (slotKey s p q + 65536 - 1 - last.get pa 65535) % 65536
  decide (pb < pa) || (pa == pb && decide (turn a < turn b))

/-- R322: bound queues that are still to be visited in this frame, go before queue `q`, and need an entry of the trigger table. -/
def trigClaims (s : State) (p q : Nat) : Nat :=
  let k := s.pkg p
  (k.slots.filter (fun x => x.2 != q && !k.visited.contains x.1 && (queueEntry s p x.2).enable &&
    servedBefore s p k.rrTrig x.2 q &&
    (match headCmd s p x.2 with
     | some c => c.trg && !badCommand c && condition s p c == some false
     | none => false))).length

/-- R318, R322: queue `q` may take an entry of the trigger table now. -/
def trigRoom (s : State) (p q : Nat) : Bool :=
  let k := s.pkg p
  let used := k.triggers.length + k.due.length
  decide (used < Config.triggerEntries) && decide (used + trigClaims s p q < Config.triggerEntries)

/-- R323, R316 to R318: one visit of a slot's queue. -/
def visitQueue (s : State) (p q : Nat) : State :=
  let e := queueEntry s p q
  let k := s.queue p q
  if k.cons = k.prod then
    s.modPkg p (fun y => { y with empties := if (y.empties.find q).isSome then y.empties else y.empties.set q s.tick })
  else
    match procRead s p e.pasid (e.ring + 64 * (k.cons % 2 ^ e.logSize)) 64 with
    | .error 0 => s
    | .error _ => queueError s p q 3
    | .ok b =>
      let c : QCmd := { q := q, pasid := e.pasid, words := (List.range 8).map (fun i => BitVec.ofNat 64 (fieldAt b (8 * i) 8)) }
      if badCommand c then queueError s p q 2
      else
        match condition s p c with
        | none => queueError s p q 4
        | some true => acceptCommand s p q c true
        | some false =>
          if c.trg && trigRoom s p q then
            acceptCommand (s.modPkg p (fun y => { y with rrTrig := y.rrTrig.set e.prio (slotKey s p q) })) p q c false
          else s

/-- The firmware serves slots: the host interface is enabled and this is no handover frame (R313, R325). -/
def serving (s : State) (p : Nat) : Bool := s.enable p && decide ((s.pkg p).handover < 2)

/-- R323: the polling slot of active slot `n` has come: its time in the frame, after those of the lower slots of its Sceix core. -/
def slotTurn (s : State) (p n : Nat) : Bool :=
  let k := s.pkg p
  decide (k.frameAt + n % 128 * Config.slotTicks ≤ s.tick) &&
  k.slots.all (fun x => x.1 / 128 != n / 128 || decide (n ≤ x.1) || k.visited.contains x.1 || !(queueEntry s p x.2).enable)

/-- POLLING_SLOT_VISIT (R323): the firmware visits active slot `ev.num`, once in a frame, in its polling slot. -/
def execPollingSlotVisit (s : State) : Out :=
  hostEvent s (fun p =>
    if !serving s p then s
    else
      match (s.pkg p).slots.find s.ev.num with
      | none => s
      | some q =>
        if (s.pkg p).visited.contains s.ev.num || !(queueEntry s p q).enable || !slotTurn s p s.ev.num then s
        else visitQueue (s.modPkg p (fun k => { k with visited := s.ev.num :: k.visited })) p q)

/-- R317, R318: at a frame boundary the triggers whose conditions came true since the last, or whose counter words fault, are due, in
the order in which they entered the table. -/
def findDue (s : State) (p : Nat) : State :=
  let k := s.pkg p
  let hit := k.triggers.filter (fun c => condition s p c != some false)
  if hit.isEmpty then s
  else s.modPkg p (fun y =>
    { y with due := y.due ++ hit.map (fun c => (c, condition s p c == some true))
             triggers := y.triggers.filter (fun c => condition s p c == some false) })

/-- QUEUE_TRIGGER_FIRE (R318, R375): the oldest due trigger starts; one whose counter word faults is discarded. -/
def execQueueTriggerFire (s : State) : Out :=
  hostEvent s (fun p =>
    if !serving s p then s
    else
      match (s.pkg p).due with
      | [] => s
      | (c, ok) :: t =>
        let s1 := s.modPkg p (fun y => { y with due := t, started := if ok then y.started ++ [c] else y.started })
        if ok || !(queueEntry s p c.q).enable then s1 else queueError s1 p c.q 4)

-- the commands

/-- R317: the accepted command at position `n` has the operation, and no earlier one of its queue is still to start. -/
def startable (s : State) (p n op : Nat) : Option QCmd :=
  let l := (s.pkg p).started
  match l[n]? with
  | none => none
  | some c => if c.op = op ∧ (l.take n).all (fun y => y.q != c.q) then some c else none

/-- An accepted command is performed: it leaves the list of those to start. -/
def performCommand (op : Nat) (f : State → Nat → QCmd → State) (s : State) : Out :=
  hostEvent s (fun p =>
    match startable s p s.ev.idx op with
    | none => s
    | some c => finishDisable (f (s.modPkg p (fun y => { y with started := y.started.eraseIdx s.ev.idx })) p c) p)

/-- NOP_COMMAND (Table 14.6): it completes at once. -/
def execNopCommand (s : State) : Out := performCommand 0 (fun s p c => sigWrite s p c) s

/-- R322: no accepted LAUNCH command of another queue goes before this one. -/
def frontEndNext (s : State) (p : Nat) (c : QCmd) : Bool :=
  let k := s.pkg p
  k.started.all (fun y => y.op != 1 || y.q == c.q || !servedBefore s p k.rrFront y.q c.q)

/-- R350: what the front end reads for a launch lies on a migrating page. -/
def launchWaits (s : State) (p : Nat) (c : QCmd) : Bool :=
  match front s p (queueEntry s p c.q).prio c with
  | .wait => true
  | _ => false

/-- R313: a launch that starts while the host interface stops is aborted. -/
def launchCommand (s : State) (p : Nat) (c : QCmd) : State :=
  let prio := (queueEntry s p c.q).prio
  let s1 := (startLaunch s p prio c).modPkg p (fun y => { y with rrFront := y.rrFront.set prio (slotKey s p c.q) })
  if s.enable p then s1 else (s1.launches.filter (fun l => l.pkg == p)).foldl (fun s l => abortLaunch s l.id 6) s1

/-- LAUNCH (R319, R320, R322). -/
def execLaunch (s : State) : Out :=
  match startable s s.ev.pkg s.ev.idx 1 with
  | some c => if frontEndNext s s.ev.pkg c && !launchWaits s s.ev.pkg c then performCommand 1 launchCommand s else .next s
  | none => .next s

/-- WRITE (Table 14.6, R375). -/
def execWrite (s : State) : Out :=
  performCommand 2 (fun s p c => sigWrite (procWrite s p c.pasid (c.word 5) (leBytes 8 (c.word 6)) (some c.q)) p c) s

/-- Table 14.6, R337: an ABORT: the held launch of the PASID with the descriptor address ends, and the command with it. -/
def abortCommand (s : State) (p : Nat) (c : QCmd) : State :=
  match s.launches.find? (fun l => l.pkg == p && l.pasid == c.pasid && l.desc == c.word 5) with
  | none => sigWrite s p c
  | some l =>
    let s1 := s.modLaunch l.id (fun y => { y with abortCmds := y.abortCmds ++ [c] })
    match l.phase with
    | .aborting _ => s1
    | _ => abortLaunch s1 l.id 6

/-- ABORT (Table 14.6). -/
def execAbort (s : State) : Out := performCommand 3 abortCommand s

/-- R219: the launch and slot of a record that may be requeued on a die. -/
def requeueable (s : State) (p dk : Nat) (c : QCmd) : Option (Launch × Nat × Nat) :=
  let a := c.word 5
  match s.launches.find? (fun l => (l.pkg == p || l.pkgs.contains p) && l.pasid == c.pasid &&
      decide (l.recBase ≤ a) && decide (a < l.recBase + 64 * l.recs)) with
  | none => none
  | some l =>
    let j := (a - l.recBase) / 64
    match procRead s p c.pasid a 8 with
    | .error _ => none
    | .ok b =>
      let w := leNat b
      if (a - l.recBase) % 64 = 0 && l.phase == .running && l.used.contains j && decide (2 ≤ bitsOf w 50 2) &&
          (members s l.id).all (fun m => (s.ctx m.1 m.2).slot != j) &&
          l.readyQ.all (fun r => r.2.all (fun e => e.1 != j)) &&
          l.cores.any (fun ck => dieOf ck == dk) && !(s.pkg p).retDies.contains dk then some (l, j, w)
      else none

/-- R219, R337: a REQUEUE; a record with TRAP 1 loses TRAP and CAUSE. Its die is one of the package whose queue carries the command (DESIGN
CHOICE, log entry 127). -/
def requeueCommand (s : State) (p : Nat) (c : QCmd) : State :=
  let dk := 4 * p + c.word 6 % 4
  match requeueable s p dk c with
  | none => sigWrite s p c
  | some (l, j, w) =>
    let w' := if bitsOf w 49 1 = 1 then w % 2 ^ 56 - 2 ^ 49 else w
    sigWrite (pushReady (s.devWrite p c.pasid (c.word 5) (leBytes 8 w')) l.id dk j) p c

/-- REQUEUE (R219, R350, Table 14.6). -/
def execRequeue (s : State) : Out :=
  match startable s s.ev.pkg s.ev.idx 4 with
  | some c => if readWaits s s.ev.pkg c.pasid (c.word 5) 8 then .next s else performCommand 4 requeueCommand s
  | none => .next s

-- the queue mapper

/-- R321: one queue comes before another on the pending list. -/
def pendingBefore (a b : PendingQ) : Bool := decide (b.eff < a.eff) || (a.eff == b.eff && decide (a.since < b.since))

def insertPending (x : PendingQ) : List PendingQ → List PendingQ
  | [] => [x]
  | y :: t => if pendingBefore x y then x :: y :: t else y :: insertPending x t

def sortPending (l : List PendingQ) : List PendingQ := l.foldl (fun t x => insertPending x t) []

/-- R321: free slots, lowest first, go to the queues of a list in order; those left over. -/
def bindTo : List Nat → List Nat → Tbl Nat → Tbl Nat × List Nat
  | _, [], t => (t, [])
  | [], q, t => (t, q)
  | n :: ns, q :: qs, t => bindTo ns qs (t.set n q)

/-- R321: AGING_NS in ticks. -/
def agingTicks (s : State) (p : Nat) : Nat := 3 * regWord s p 0x48

/-- R321: the effective priority of a pending queue rises by what its time on the list gives. -/
def age (s : State) (p : Nat) (x : PendingQ) : PendingQ :=
  let t := agingTicks s p
  let n := (s.tick - x.aged) / t
  { x with eff := max x.eff (min (queueEntry s p x.q).ceil (x.eff + n)), aged := x.aged + n * t }

/-- R321: the pending list in its order at the present. -/
def agePending (s : State) (p : Nat) : State :=
  s.modPkg p (fun y => { y with pending := sortPending (y.pending.map (age s p)) })

/-- R321: binding at a frame boundary: the pending list first, then runnable queues without a slot, which else join the list. -/
def bindQueues (s0 : State) (p : Nat) : State :=
  let s := agePending s0 p
  let k := s.pkg p
  let free := (List.range Config.activeSlots).filter (fun n => (k.slots.find n).isNone)
  let old := sortPending (k.pending.filter (fun x => runnable s p x.q))
  let fresh := (k.queues.map (·.1)).filter (fun q => runnable s p q && !bound s p q && k.pending.all (fun x => x.q != q))
  let r := bindTo free (old.map (·.q) ++ fresh) k.slots
  let join (q : Nat) : PendingQ := { q := q, since := s.tick, eff := (queueEntry s p q).prio, aged := s.tick }
  s.modPkg p (fun y => { y with slots := r.1, pending := old.filter (fun x => r.2.contains x.q) ++ (fresh.filter (r.2.contains ·)).map join })

/-- AGING_TICK (R321): the effective priorities of the pending queues rise by what their time on the list gives. -/
def execAgingTick (s : State) : Out := hostEvent s (agePending s)

/-- R321: a bound queue has not been runnable for UNBIND_NS. -/
def unbindDue (s : State) (p q : Nat) : Bool :=
  bound s p q && !runnable s p q && (match (s.pkg p).empties.find q with | some t => decide (t + 300000 ≤ s.tick) | none => false)

/-- QUEUE_UNBIND (R321): queue `ev.num` unbinds. -/
def execQueueUnbind (s : State) : Out :=
  hostEvent s (fun p =>
    if unbindDue s p s.ev.num then
      s.modPkg p (fun y => { y with slots := y.slots.filter (fun x => x.2 != s.ev.num), empties := y.empties.erase s.ev.num })
    else s)

-- frames

/-- Address of a word of the device block (Table 15.1). -/
def deviceBlock (p o : Nat) : Nat := fabric p (0x1000000 + o)

/-- R351, R372: why a request is refused: its KIND is unknown, an operand is out of range or badly formed, the core is open or holds a
continuation, the number or its die is in the wrong state, the spare is not good or is mapped, the self-test failed, no spare is left,
the repair log is full, the package has lost a die before, the port cannot do it, no leaf is left. -/
def nKind : Nat := 0
def nOperand : Nat := 1
def nCore : Nat := 2
def nRetired : Nat := 3
def nSpare : Nat := 4
def nSelfTest : Nat := 5
def nNoSpare : Nat := 6
def nLogFull : Nat := 7
def nSecondDie : Nat := 8
def nPort : Nat := 9
def nLeaves : Nat := 10

/-- R372: the DETAIL of a refused request: its KIND in bits 7 to 0, and a value of the reason above (log entry 111). -/
def refusalDetail (kind reason : Nat) : Nat := kind % 256 + 256 * (Config.freeReason reason).toNat

/-- R333, R351, R372: the request in hand finishes: STATUS, then DONE; a refusal is an event with the KIND and the reason. -/
def finishSvc (s : State) (p status : Nat) (reason : Nat := nOperand) : State :=
  match (s.pkg p).svc with
  | none => s
  | some v =>
    let s1 := (s.perform (.hbm (deviceBlock p 0xA8)) (leBytes 8 status)).perform (.hbm (deviceBlock p 0xA0)) (leBytes 8 v.seq)
    let s2 := s1.modPkg p (fun k => { k with svc := none })
    if status = 1 then s2.event p 0x0020 0 (refusalDetail v.kind reason) else s2

/-- R333, Table 16.1: kinds of service requests that the device knows. -/
def knownKind (n : Nat) : Bool := (decide (1 ≤ n) && decide (n ≤ 4)) || (decide (8 ≤ n) && decide (n ≤ 15) && n != 14)

/-- R333: ARG1 and ARG2 of the request that is taken up; free values where the driver wrote them too early. -/
def takenArgs (s : State) (p : Nat) : Nat × Nat :=
  if (s.pkg p).svcEarly then ((Config.freeOperand (2 * s.free)).toNat, (Config.freeOperand (2 * s.free + 1)).toNat)
  else (s.hbmWord p 0x1000090, s.hbmWord p 0x1000098)

/-- R333: the firmware reads SEQ, and takes up the request that it announces. -/
def readSeq (s : State) (p : Nat) : State :=
  let seq := s.hbmWord p 0x1000080
  if (s.pkg p).svc.isSome || seq = s.hbmWord p 0x10000A0 then s
  else
    let kind := s.hbmWord p 0x1000088 % 256
    let s1 := s.modPkg p (fun k => { k with svc := some { seq := seq, kind := kind, args := some (takenArgs s p) }, svcEarly := false })
    if knownKind kind then s1 else finishSvc s1 p 1 nKind

/-- R325, R366: what a staged image turns out to be: it lies outside HBM, its signature or its version is not accepted, or it is
good. -/
def stageFirmware (s : State) (p : Nat) : State :=
  let k := s.pkg p
  let v := Config.freeVersion (1 + s.free)
  let bad := (Config.freeVerdict s.free).toNat
  if k.fwState ≠ 1 then s
  else if 2 ^ 39 ≤ regWord s p 0x400 then s.modPkg p (fun k => { k with fwState := 3, fwCode := 3 })
  else if (Config.freeSecurity v).toNat < k.secVer then s.modPkg p (fun k => { k with fwState := 3, fwCode := 1 })
  else if bad ≠ 0 then s.modPkg p (fun k => { k with fwState := 3, fwCode := 1 + bad % 3 })
  else s.modPkg p (fun k => { k with fwState := 2, fwCode := 0, fwNext := v, standby := some (1 + s.free) })

/-- R323: a frame boundary has come. -/
def frameDue (s : State) (p : Nat) : Bool := decide ((s.pkg p).frameAt + Config.frameTicks ≤ s.tick)

/-- The boundary at or before the present. -/
def markFrame (s : State) (p : Nat) : State := s.modPkg p (fun k =>
  { k with frameAt := s.tick / Config.frameTicks * Config.frameTicks, visited := [] })

/-- R330: the PTP clock sends a delay request through its port. -/
def sendDelayRequest (s : State) (p port : Nat) : State :=
  let f := Config.freeDelayRequest s.free
  s.modPkg p (fun k => { k with sent := (port, f ++ zeros (60 - f.length)) :: k.sent, ptpSeen := false })

/-- R330: the PTP clock of a package, where it is enabled, its port is in service and a frame of its rule has come since it last did,
disciplines the rate of DEV_TIME within 200 parts per million and sends a delay request; else it holds the last rate, as through a port
out of service (R358). Without PTP the rate is the nominal one. -/
def discipline (s : State) (p : Nat) : State :=
  let w := regWord s p 0x70
  if bitsOf w 0 1 = 0 then (if (s.pkg p).pace = 1000000000 then s else s.setUnits p (s.timeUnits p) 1000000000)
  else if ((s.pkg p).sports.get (bitsOf w 1 1) {}).out || !(s.pkg p).ptpSeen then s
  else sendDelayRequest (s.setUnits p (s.timeUnits p) (999800000 + (Config.freePace s.free).toNat % 400001)) p (bitsOf w 1 1)

/-- R371: in a pod of several packages the Otcor ports in service count the flits of a frame: sent, received and sent again. -/
def carryFlits (s : State) (p : Nat) : State :=
  if s.pkgs.length < 2 then s
  else (List.range 96).foldl (fun s i =>
    if ((s.pkg p).ports.get (i / 3) {}).out then s
    else s.countBy p (0x170000 + 0x100 * (i / 3) + 8 * (i % 3)) (Config.freeFlits (96 * s.free + i)).toNat) s

/-- R318, R321, R323, R330, R333: what the firmware does at the boundary that begins a frame. -/
def beginFrame (s : State) (p : Nat) : State :=
  let s1 := carryFlits (discipline (markFrame s p) p) p
  let s2 := if s1.enable p then findDue (bindQueues s1 p) p else finishDisable s1 p
  readSeq (stageFirmware s2 p) p

/-- FRAME_BOUNDARY (R321, R323, R325, R333): slots are bound, SEQ is read, a staged firmware image is judged, a requested switch begins
its handover frame. -/
def execFrameBoundary (s : State) : Out :=
  hostEvent s (fun p =>
    if !frameDue s p || decide (2 ≤ (s.pkg p).handover) then s
    else
      if (s.pkg p).handover = 1 then (carryFlits (discipline (markFrame s p) p) p).modPkg p (fun k => { k with handover := 2 })
      else beginFrame s p)

/-- FIRMWARE_HANDOVER (R325, R366, R372): at the boundary after the handover frame the new executive starts, with its first frame. -/
def execFirmwareHandover (s : State) : Out :=
  hostEvent s (fun p =>
    let k := s.pkg p
    if k.handover < 2 || !frameDue s p then s
    else
      let old := k.fwVer.getD (Config.freeVersion 0)
      let sec := (Config.freeSecurity k.fwNext).toNat
      let s1 := s.modPkg p (fun k =>
        { k with handover := 0, fwHalf := !k.fwHalf, fwVer := some k.fwNext, fwNext := old, fwState := 0, secVer := max k.secVer sec
                 fwImage := k.standby.getD 0, standby := some k.fwImage })
      let s2 := s1.event p 0x0040 0 0
      beginFrame (if k.secVer < sec then logRepair s2 p rVersionRaised sec else s2) p)

end Sys2Proof.Machine
end

