-- ==== Sys2Proof/Machine/Fleet.lean ====
section
/-!
DEFINITION. Service requests (R333, R348, R352 to R358, R360, R368), errors and their repair (R336, R356, R357, R359, R360), power and
reset (R362, R363, R365 to R367), the pod's packages (R352) and the management interface (R373).
-/

namespace Sys2Proof.Machine

-- requests in common

def svcArg1 (s : State) (p : Nat) : Nat :=
  match (s.pkg p).svc.bind (·.args) with | some a => a.1 | none => s.hbmWord p 0x1000090
def svcArg2 (s : State) (p : Nat) : Nat :=
  match (s.pkg p).svc.bind (·.args) with | some a => a.2 | none => s.hbmWord p 0x1000098

/-- The request in hand is of a kind and has not begun; `f` is what it does. -/
def beginSvc (kind : Nat) (s : State) (f : Nat → State → State) : Out :=
  hostEvent s (fun p =>
    match (s.pkg p).svc with
    | some v => if v.kind = kind ∧ v.begun.isNone ∧ (s.pkg p).handover < 2 then f p s else s
    | none => s)

/-- Its effect has begun. -/
def markBegun (s : State) (p : Nat) (left : List (Nat × Nat)) (pages : List (Nat × Nat)) : State :=
  s.modPkg p (fun k => { k with svc := k.svc.map (fun v => { v with begun := some s.tick, left := left, pages := pages }) })

/-- A request is begun once, and afterwards finishes with STATUS 0 as soon as `done` holds. -/
def longSvc (kind : Nat) (s : State) (begin_ : Nat → State → State) (done : Svc → State → Nat → Bool)
    (end_ : Nat → State → State) : Out :=
  hostEvent s (fun p =>
    match (s.pkg p).svc with
    | none => s
    | some v =>
      if v.kind != kind || decide (2 ≤ (s.pkg p).handover) then s
      else if v.begun.isNone then begin_ p s
      else if done v s p then finishSvc (end_ p s) p 0
      else s)

-- shootdown

/-- R348: a translation that a request names. -/
def namedEntry (pasid va : Nat) (t : TlbEntry) : Bool :=
  t.pasid == pasid && (va == 2 ^ 64 - 1 || (decide (t.va < va + 65536) && decide (va < t.va + t.size)))

/-- The range of HBM that a translation reaches, of the page that a request names or all of it. -/
def entryRange (va : Nat) (t : TlbEntry) : List (Nat × Nat) :=
  match physPlace (ptePkg t.leaf) t.pasid (ptePage t.leaf) with
  | some (.hbm a) => [if t.va ≤ va && va < t.va + t.size then (a + (va - t.va), 65536) else (a, t.size)]
  | _ => []

/-- R348: cached translations of a package that a request removes. -/
def removed (s : State) (p pasid va : Nat) : List TlbEntry :=
  (s.cores.filter (fun c => pkgOf c.1 == p)).flatMap (fun c => c.2.tlb.filter (namedEntry pasid va)) ++
  (s.dies.filter (fun d => diePkg d.1 == p)).flatMap (fun d => d.2.tlbAll.filter (namedEntry pasid va))

/-- R348: they are gone from every micro-TLB and die TLB of the package. -/
def dropEntries (s : State) (p pasid va : Nat) : State :=
  let keep (l : List TlbEntry) : List TlbEntry := l.filter (fun t => !namedEntry pasid va t)
  { s with
    cores := s.cores.map (fun c => if pkgOf c.1 = p then (c.1, { c.2 with tlb := keep c.2.tlb }) else c)
    dies := s.dies.map (fun d => if diePkg d.1 = p then (d.1, { d.2 with tlb := d.2.tlb.map (fun e => (e.1, keep e.2)) }) else d) }

/-- R349: the count that a home keeps of a page of its HBM (`n` bytes from a fabric address): atomics that an L2 slice has executed
and not yet written through, and ticket waits that stand recorded. Atomics and reductions at the home perform as it accepts them. -/
def inFlight (s : State) (lo n : Nat) : Nat :=
  let hit (q : Place) : Bool := match q with | .hbm a => decide (lo ≤ a) && decide (a < lo + n) | _ => false
  (s.dies.map (fun d => (d.2.slice.filter (fun st => st.atomic && hit st.place)).length)).sum +
  (s.waiters.filter (fun w => hit w.place)).length

/-- R349: what a request names: its old home's pages, by the translations it removes and by the leaf in memory. -/
def oldHomes (s : State) (p pasid va : Nat) : List (Nat × Nat) :=
  ((removed s p pasid va).flatMap (entryRange va) ++
    (match leafAt s p pasid va with
     | .leaf w n e => entryRange va { pasid := pasid, va := w, size := n, leaf := e }
     | _ => [])).eraseDups

/-- R348: an access was translated through an entry that a request removes: one whose page covers a byte of the 64 KiB page that it
names, whatever the size of the leaf, or any of its PASID. -/
def usedPage (pasid va : Nat) (g : Option (Nat × Nat × Nat)) : Bool :=
  match g with
  | some (q, w, n) => namedEntry pasid va { pasid := q, va := w, size := n, leaf := 0 }
  | none => false

/-- R348: no access of a package through the named translations is still to be acknowledged. -/
def pageQuiet (s : State) (p pasid va : Nat) : Bool :=
  let used := usedPage pasid va
  (s.cores.filter (fun c => pkgOf c.1 == p)).all (fun c =>
    (c.2.wbuf ++ c.2.hand).all (fun st => !used st.page) &&
    c.2.ctxs.all (fun x => x.2.loads.all (fun y => !used y.target.page) &&
      (x.2.released.filterMap Released.store?).all (fun st => !used st.page))) &&
  (s.dies.filter (fun d => diePkg d.1 == p)).all (fun d => d.2.slice.all (fun st => !used st.page)) &&
  s.waiters.all (fun w => pkgOf w.core != p || !used w.page)

/-- R348: a SHOOTDOWN that has begun may finish: the accesses are acknowledged, and nothing is in flight at the old homes. -/
def pagesQuiet (s : State) (p : Nat) (v : Svc) : Bool :=
  pageQuiet s p (svcArg1 s p) (svcArg2 s p) && v.pages.all (fun r => inFlight s r.1 r.2 == 0)

/-- SHOOTDOWN (R333, R348). -/
def execShootdown (s : State) : Out :=
  longSvc 1 s
    (fun p s =>
      let pasid := svcArg1 s p
      let va := svcArg2 s p
      if 2 ^ 20 ≤ pasid ∨ (va ≠ 2 ^ 64 - 1 ∧ va % 65536 ≠ 0) then finishSvc s p 1 nOperand
      else markBegun (dropEntries s p pasid va) p [] (oldHomes s p pasid va))
    (fun v s p => pagesQuiet s p v) (fun _ s => s)

-- pre-emption and reopening

/-- R333: the cores that a pattern in HBM names. -/
def patternCores (s : State) (p a : Nat) : Option (List Nat) :=
  if 2 ^ 39 < a + 64 then none
  else some ((bitNums (BitVec.ofNat 512 (Mem.nat s.mem (fabric p a) 64))).map (fun c => 512 * p + c))

/-- Contexts of cores that hold continuations. -/
def residentsOf (s : State) (cores : List Nat) : List (Nat × Nat) :=
  cores.flatMap (fun ck => (residents (s.core ck)).map (fun k => (ck, k.1)))

/-- R333, R338: a request names contexts, and each is pre-empted. -/
def preemptAll (s : State) (p : Nat) (l : List (Nat × Nat)) : State := l.foldl (fun s m => preempt s m.1 m.2) (markBegun s p l [])

def closeCores (s : State) (cores : List Nat) (b : Bool) : State :=
  cores.foldl (fun s ck => s.modCore ck (fun c => { c with closed := b })) s

/-- R333, R338: every context of a request is saved, and no write of the package's device waits (R350). -/
def savedAll (v : Svc) (s : State) (p : Nat) : Bool := v.left.isEmpty && s.devHeld.all (fun w => w.pkg != p)

/-- PREEMPT_CORES (R333, R338). -/
def execPreemptCores (s : State) : Out :=
  longSvc 2 s
    (fun p s =>
      match patternCores s p (svcArg1 s p) with
      | none => finishSvc s p 1
      | some l => preemptAll (if svcArg2 s p % 2 = 1 then closeCores s l true else s) p (residentsOf s l))
    savedAll (fun _ s => s)

/-- R333: the held launch of a package with a descriptor address. -/
def launchAt (s : State) (p a : Nat) : Option Launch := s.launches.find? (fun l => l.pkg == p && l.desc == a)

/-- PREEMPT_LAUNCH (R333, R338). -/
def execPreemptLaunch (s : State) : Out :=
  longSvc 3 s
    (fun p s =>
      match launchAt s p (svcArg1 s p) with
      | none => finishSvc s p 2
      | some l => preemptAll (s.modLaunch l.id (fun y => { y with frozen := true })) p (members s l.id))
    savedAll
    (fun p s => match launchAt s p (svcArg1 s p) with
      | some l => s.modLaunch l.id (fun y => { y with frozen := false })
      | none => s)

/-- REOPEN (R333). -/
def execReopen (s : State) : Out :=
  beginSvc 4 s (fun p s =>
    match patternCores s p (svcArg1 s p) with
    | none => finishSvc s p 1
    | some l => finishSvc (closeCores s l false) p 0)

-- the retirement map

/-- R254: entries of the resident contexts of a package that name a retired member become stale. -/
def markStale (s : State) (p : Nat) : State :=
  let fix (t : Tbl Scope) : Tbl Scope := t.map (fun e => (e.1, { e.2 with stale := e.2.stale || namesRetired s p e.2 }))
  { s with cores := s.cores.map (fun c =>
      if pkgOf c.1 = p then
        (c.1, { c.2 with ctxs := c.2.ctxs.map (fun x =>
          (x.1, { x.2 with arch := { x.2.arch with scopes := fix x.2.arch.scopes }
                           snap := { x.2.snap with scopes := fix x.2.snap.scopes } })) })
      else c) }

/-- R352: one change of a package's copy of the map. -/
def changeMap (s : State) (p key : Nat) (isDie gone : Bool) : State :=
  let upd (l : List Nat) : List Nat := if gone then addOnce key l else l.filter (· != key)
  markStale (s.modPkg p (fun k => if isDie then { k with retDies := upd k.retDies } else { k with retCores := upd k.retCores })) p

/-- R352: a package makes a change, and sends it to every other reachable package. -/
def retire (s : State) (p key : Nat) (isDie gone : Bool) : State :=
  let others := (s.pkgs.map (·.1)).filter (fun q => q != p && s.reaches p q)
  (changeMap s p key isDie gone).modPkg p (fun k => { k with mapSend := k.mapSend ++ others.map (fun q => (q, key, isDie, gone)) })

/-- R352: every reachable package has acknowledged the package's changes. -/
def mapSettled (s : State) (p : Nat) : Bool := (s.pkg p).mapSend.all (fun m => !s.reaches p m.1)

/-- RETIREMENT_MAP_UPDATE (R352): package `ev.pkg` receives the oldest change that package `ev.num` has sent it. -/
def execRetirementMapUpdate (s : State) : Out :=
  let q := s.ev.pkg
  let p := s.ev.num
  if !s.reaches p q then .next s
  else
    match (s.pkg p).mapSend.find? (fun m => m.1 == q) with
    | none => .next s
    | some m => .next ((changeMap s q m.2.1 m.2.2.1 m.2.2.2).modPkg p (fun k => { k with mapSend := k.mapSend.erase m }))

/-- What a copy of the map says about a package, in cores and dies. -/
def ownPart (p : Nat) (k : Pkg) : List Nat × List Nat :=
  (k.retCores.filter (fun c => pkgOf c == p), k.retDies.filter (fun d => diePkg d == p))

/-- A copy of the map takes over what another copy says about a package. -/
def mergeMap (q : Nat) (from_ : Pkg) (k : Pkg) : Pkg :=
  { k with retCores := k.retCores.filter (fun c => pkgOf c != q) ++ (ownPart q from_).1
           retDies := k.retDies.filter (fun d => diePkg d != q) ++ (ownPart q from_).2 }

/-- R352: a package can be reached again. It receives the whole map: the part of every package that it reaches from that package, and of
the others from the first that it reaches; every package that it reaches takes over its part. -/
def rejoin (s : State) (p : Nat) : State :=
  let s1 := s.modPkg p (fun k => { k with reachable := true, mapSend := [] })
  let here := (s1.pkgs.map (·.1)).filter (fun q => q != p && s1.reaches p q)
  let away : List (Nat × Nat) := match here with
    | [] => []
    | h :: _ => ((s1.pkgs.map (·.1)).filter (fun q => q != p && !here.contains q)).map (fun q => (q, h))
  let s2 := away.foldl (fun s q => s.modPkg p (mergeMap q.1 (s.pkg q.2))) s1
  let s3 := here.foldl (fun s q => (s.modPkg p (mergeMap q (s.pkg q))).modPkg q (fun y =>
    { mergeMap p (s.pkg p) y with mapSend := y.mapSend.filter (fun m => m.1 != p) })) s2
  (p :: here).foldl markStale s3

-- cores and dies

/-- R353: the unstarted items of the chunks that a core holds return to its die's distributors. -/
def returnChunks (s : State) (ck : Nat) : State :=
  let s1 := (s.core ck).chunks.foldl (fun s c =>
    if c.lo < c.hi then s.modLaunch c.launch (fun l =>
      { l with returned := l.returned.set (dieOf ck) (l.returned.get (dieOf ck) [] ++ [(c.lo, c.hi)]) })
    else s) s
  s1.modCore ck (fun c => { c with chunks := [] })

/-- R353: a core number leaves service. -/
def coreOut (s : State) (p ck : Nat) : State :=
  (retire (returnChunks s ck) p ck false true).modPkg p (fun k => { k with unmapped := addOnce (pcoreOf ck) k.unmapped })

/-- CORE_OUT (R353). -/
def execCoreOut (s : State) : Out :=
  longSvc 8 s
    (fun p s =>
      let a := svcArg1 s p
      let ck := 512 * p + a % 512
      if 512 ≤ a ∨ svcArg2 s p ≠ 0 then finishSvc s p 1 nOperand
      else if !(s.core ck).closed ∨ !(residents (s.core ck)).isEmpty then finishSvc s p 1 nCore
      else if !logRoom s p then finishSvc (logRepair s p rCoreRetired a) p 1 nLogFull
      else markBegun (logRepair (coreOut s p ck) p rCoreRetired a) p [] [])
    (fun _ s p => mapSettled s p) (fun _ s => s)

/-- R354: a physical core of a die that no number holds and that is not known bad: the base record holds it good, and no record of the
log holds it bad. -/
def spareFree (k : Pkg) (d j : Nat) : Bool := decide (j < 136) && !k.badPhys.contains (136 * d + j) && mapWord k d j == 0

/-- R354 steps 2 to 4: the spare takes the logical slot, zeroed, and stays closed. -/
def mapSpare (s : State) (p ck j : Nat) : State :=
  let c := s.core ck
  let s1 := s.setCore ck { cycle := c.cycle, lag := c.lag, closed := true, fused := c.fused }
  retire (s1.modPkg p (fun k => { k with physOf := k.physOf.set (pcoreOf ck) j, unmapped := k.unmapped.filter (· != pcoreOf ck) }))
    p ck false false

/-- SPARE_IN (R354). -/
def execSpareIn (s : State) : Out :=
  longSvc 9 s
    (fun p s =>
      let k := s.pkg p
      let a := svcArg1 s p
      let ck := 512 * p + a % 512
      let d := a % 512 / 128
      let j := svcArg2 s p
      if 512 ≤ a then finishSvc s p 1 nOperand
      else if !k.retCores.contains ck ∨ k.retDies.contains (dieOf ck) then finishSvc s p 1 nRetired
      else if !spareFree k d j then finishSvc s p 1 nSpare
      else if !logRoom s p then finishSvc (logRepair s p rSpareMapped a) p 1 nLogFull
      else if Config.freeSelfTest s.free then markBegun (mapSpare (logRepair s p rSpareMapped a j) p ck j) p [] []
      else finishSvc ((logRepair s p rPhysBad (136 * d + j)).modPkg p (fun k => { k with badPhys := addOnce (136 * d + j) k.badPhys })) p 1
        nSelfTest)
    (fun _ s p => mapSettled s p) (fun _ s => s)

/-- Cores of a die. -/
def dieCores (dk : Nat) : List Nat := (List.range 128).map (fun i => 128 * dk + i)

/-- R355: a launch's ranges on a die pass to the lowest-numbered remaining die of its core set. -/
def passRanges (s : State) (dk : Nat) : State :=
  { s with launches := s.launches.map (fun l =>
      match l.dies.find? (fun d => d != dk && !(s.pkg (diePkg d)).retDies.contains d) with
      | none => l
      | some d =>
        let r := l.ranges.get dk (0, 0)
        let own := (if r.1 < r.2 then [r] else []) ++ l.passed.get dk []
        { l with
          ranges := l.ranges.set dk (0, 0)
          passed := (l.passed.set d (l.passed.get d [] ++ own)).erase dk
          returned := (l.returned.set d (l.returned.get d [] ++ l.returned.get dk [])).erase dk }) }

/-- R281, R355: open transactions with a range homed on one of some dies abort with CAUSE 1. -/
def abortHomed (s : State) (gone : Nat → Bool) : State :=
  (s.ltxs.filter (fun t => t.state == 0)).foldl (fun s t =>
    match t.ranges.find? (fun r => gone (homeOf r.1)) with
    | some r => ltxAbort s t 1 (homeOf r.1)
    | none => s) s

/-- R355: the HBM range of a base die is lost. -/
def loseHbm (s : State) (dk : Nat) : State :=
  let lo := fabric (dk / 4) (dk % 4 * 2 ^ 37)
  let inside (a : Nat) : Bool := decide (lo ≤ a) && decide (a < lo + 2 ^ 37)
  { s with mem := s.mem.filter (fun c => !inside c.1), poison := s.poison.filter (fun l => !inside (128 * l)) }

/-- R355 steps 2 and 3: the die leaves service. -/
def dieOut (s : State) (p dk : Nat) (keep : Bool) : State :=
  let s1 := (dieCores dk).foldl (fun s ck => returnChunks s ck) s
  let s2 := retire ((dieCores dk).foldl (fun s ck => retire s p ck false true) s1) p dk true true
  let s3 := passRanges (abortHomed s2 (fun d => d == dk)) dk
  let s4 := s3.modDie dk (fun d => { d with out := true, hbmOut := !keep, l2 := [], tlb := [], amp := none })
  let s5 := s4.modPkg p (fun k =>
    { k with unmapped := (dieCores dk).foldl (fun l ck => addOnce (pcoreOf ck) l) k.unmapped
             ports := (List.range 8).foldl (fun t i =>
               let n := 8 * (dk % 4) + i
               t.set n { t.get n {} with out := true }) k.ports })
  if keep then s5 else loseHbm s5 dk

/-- R333, R355: a DIE_OUT request begins: the die's cores are pre-empted and closed. -/
def dieOutBegin (s : State) (p : Nat) : State :=
  let a := svcArg1 s p
  let cores := dieCores (4 * p + a % 4)
  if 4 ≤ a ∨ 2 ≤ svcArg2 s p then finishSvc s p 1 nOperand
  else if (s.pkg p).retDies.any (fun d => diePkg d == p) then finishSvc s p 1 nSecondDie
  else if !logRoom s p then finishSvc (logRepair s p rDieRetired a) p 1 nLogFull
  else
    let s1 := preemptAll (closeCores s cores true) p (residentsOf s cores)
    s1.modPkg p (fun k => { k with svc := k.svc.map (fun v => { v with closed := cores.filter (fun ck => !(s.core ck).closed) }) })

/-- R369: a DIE_OUT for whose record the log has no room any more finishes with STATUS 1; cores that it closed are open again. -/
def dieOutRefused (s : State) (p : Nat) (v : Svc) (d : Nat) : State :=
  finishSvc (logRepair (closeCores s v.closed false) p rDieRetired d) p 1 nLogFull

/-- DIE_OUT (R352, R355): the request begins; when every context of the die is saved the die leaves service, if the log still has room for the record (R369); the request finishes when
every reachable package knows. -/
def execDieOut (s : State) : Out :=
  hostEvent s (fun p =>
    match (s.pkg p).svc with
    | none => s
    | some v =>
      let a := svcArg1 s p % 4
      if v.kind != 10 || decide (2 ≤ (s.pkg p).handover) then s
      else if v.begun.isNone then dieOutBegin s p
      else if !v.left.isEmpty then s
      else if !(s.die (4 * p + a)).out && !logRoom s p then dieOutRefused s p v a
      else if !(s.die (4 * p + a)).out then logRepair (dieOut s p (4 * p + a) (svcArg2 s p % 2 == 1)) p rDieRetired a (svcArg2 s p % 2)
      else if mapSettled s p then finishSvc s p 0
      else s)

-- memory and links

/-- R356: the bank of a base die in which an HBM address of a package lies. -/
def bankOf (a : Nat) : Nat := Config.freeRow (a % 2 ^ 37) / 2 ^ 20

/-- BANK_SPARE (R356): of the two stacks of the die, the one that holds the address spares a bank. -/
def execBankSpare (s : State) : Out :=
  beginSvc 11 s (fun p s =>
    let a := svcArg1 s p
    let dk := 4 * p + a / 2 ^ 37
    let stack := bitsOf a 12 1
    let used := (s.die dk).bankSpares.get stack 0
    if 2 ^ 39 ≤ a ∨ svcArg2 s p ≠ 0 ∨ (s.die dk).hbmOut then finishSvc s p 1 nOperand
    else if 2 ≤ used then finishSvc s p 1 nNoSpare
    else if !logRoom s p then finishSvc (logRepair s p rBankSpared (bankOf a)) p 1 nLogFull
    else
      let s1 := s.modDie dk (fun d => { d with bankSpares := d.bankSpares.set stack (used + 1) })
      finishSvc ((logRepair s1 p rBankSpared (bankOf a) stack (dk % 4)).count p (dieTel dk 0x30)) p 0)

/-- Table 16.1: a PORT request: the port, whether it is a stream port, and the one of OUT, IN and SPARE_LANE that is set; none
when it is badly formed. -/
def portRequest (s : State) (p : Nat) : Option (Bool × Nat × Nat × Nat) :=
  let a := svcArg1 s p
  let b := svcArg2 s p
  let what := bitsOf b 8 3
  let stream := bitsOf a 5 1 == 1
  if 64 ≤ a ∨ 2 ^ 11 ≤ b ∨ bitsOf b 3 5 ≠ 0 ∨ (what ≠ 1 ∧ what ≠ 2 ∧ what ≠ 4) then none
  else if stream ∧ (what = 1 ∨ bitsOf a 1 4 ≠ 0) then none
  else some (stream, (if stream then a % 2 else a % 32), what, b % 8)

/-- What a PORT request asks: 1 SPARE_LANE, 2 OUT, 4 IN, 0 for a badly formed one. -/
def portWhat (s : State) (p : Nat) : Nat := match portRequest s p with | some r => r.2.2.1 | none => 0

/-- A port goes out of service or returns. -/
def setPort (s : State) (p : Nat) (stream : Bool) (n : Nat) (out : Bool) : State :=
  s.modPkg p (fun k =>
    if stream then { k with sports := k.sports.set n { out := out } }
    else { k with ports := k.ports.set n { k.ports.get n {} with out := out, closing := false } })

/-- R356 to R358: a PORT request that asks for `what`, or is badly formed. -/
def portSvc (what : Nat) (s : State) (f : State → Nat → Bool → Nat → Nat → Option State) : Out :=
  beginSvc 12 s (fun p s =>
    match portRequest s p with
    | none => finishSvc s p 1 nOperand
    | some (stream, n, w, lane) =>
      if w != what then s
      else if !logRoom s p then finishSvc (s.event p 0x0043 0 0) p 1 nLogFull
      else match f s p stream n lane with
        | none => finishSvc s p 1 nPort
        | some s1 => finishSvc s1 p 0)

/-- A port in a repair record: Otcor ports 0 to 31, and stream ports above. -/
def resourceOf (stream : Bool) (n : Nat) : Nat := if stream then 32 + n else n

/-- R358 step 2: no runner of an Otcor port is busy, or the TIMEOUT of the longest collective on it has passed since a tick. -/
def portIdle (s : State) (p n since : Nat) : Bool :=
  s.colls.all (fun j => pkgOf j.core != p || j.port != some n || decide (since + j.timeout ≤ s.tick))

/-- R358: what an OUT waits for: the runners of an Otcor port, or, at a stream port, the frame in delivery, whose count word is still
to be published. -/
def portQuiet (s : State) (p : Nat) (stream : Bool) (n since : Nat) : Bool :=
  if stream then (s.pkg p).publish.all (fun y => y.port != n) else portIdle s p n since

/-- R358 step 3: the port stops. -/
def stopPort (s : State) (p : Nat) (stream : Bool) (n : Nat) : State :=
  finishSvc (logRepair (setPort s p stream n true) p rPortOut (resourceOf stream n)) p 0

/-- R358 step 1: an Otcor port is closed to new collectives; a stream port receives and delivers no further frame. -/
def closePort (s : State) (p : Nat) (stream : Bool) (n : Nat) (b : Bool) : State :=
  s.modPkg p (fun k =>
    if stream then { k with sports := k.sports.set n { out := b } }
    else { k with ports := k.ports.set n { k.ports.get n {} with closing := b } })

/-- PORT_OUT (R358): a stream port stops after the frame in delivery; an Otcor port takes no new collectives and stops when its runners
are idle, or no longer wait. -/
def execPortOut (s : State) : Out :=
  hostEvent s (fun p =>
    match (s.pkg p).svc with
    | none => s
    | some v =>
      if v.kind != 12 || decide (2 ≤ (s.pkg p).handover) then s
      else
        match portRequest s p with
        | none => if v.begun.isNone then finishSvc s p 1 nOperand else s
        | some (stream, n, w, _) =>
          if w != 2 then s
          else if !logRoom s p then
            finishSvc ((if v.begun.isSome then closePort s p stream n false else s).event p 0x0043 0 0) p 1 nLogFull
          else if portQuiet s p stream n (v.begun.getD s.tick) then stopPort s p stream n
          else if v.begun.isNone then markBegun (closePort s p stream n true) p [] []
          else s)

/-- PORT_IN (R358). -/
def execPortIn (s : State) : Out :=
  portSvc 4 s (fun s p stream n _ => some (logRepair (setPort s p stream n false) p rPortIn (resourceOf stream n)))

/-- The spare of a port replaces a lane. -/
def spareLane (s : State) (p n lane : Nat) : State :=
  s.modPkg p (fun k => { k with ports := k.ports.set n { k.ports.get n {} with spare := some lane } })

/-- PORT_SPARE_LANE (R357, R358). -/
def execPortSpareLane (s : State) : Out :=
  portSvc 1 s (fun s p _ n lane =>
    if ((s.pkg p).ports.get n {}).spare.isSome then none
    else some (logRepair (spareLane s p n lane) p rLaneSpared n lane))

/-- LANE_FAULT (R357): lane `ev.idx` of Otcor port `ev.num` fails: the spare replaces it, or the port goes out of service. -/
def execLaneFault (s : State) : Out :=
  let p := s.ev.pkg
  let n := s.ev.num % 32
  let o := (s.pkg p).ports.get n {}
  if o.out || !s.answers p then .next s
  else if o.spare.isNone then .next (logRepair ((spareLane s p n (s.ev.idx % 8)).event p 0x0022 n 0) p rLaneSpared n (s.ev.idx % 8))
  else .next (logRepair ((setPort s p false n true).event p 0x0022 n 0) p rPortOut n)

/-- SCRUB (R360). -/
def execScrub (s : State) : Out :=
  beginSvc 13 s (fun p s =>
    let a := svcArg1 s p
    if a < 3600 ∨ 2592000 < a ∨ svcArg2 s p ≠ 0 then finishSvc s p 1 nOperand
    else finishSvc (s.modPkg p (fun k => { k with scrub := a })) p 0)

/-- R360: ticks of a scrub period of a package. -/
def scrubTicks (s : State) (p : Nat) : Nat := (s.pkg p).scrub * 3000000000

/-- R356, R360: the MSC of a die reads the line at an address of its HBM: 1 finds it correctable, 2 uncorrectable. -/
def scrubLine (s : State) (dk a what : Nat) : State :=
  let p := diePkg dk
  let row := Config.freeRow a
  let line := fabric p (dk % 4 * 2 ^ 37 + a) / 128
  if what = 1 then
    (s.modDie dk (fun d => { d with rowErr := d.rowErr.set row (d.rowErr.get row 0 + 1) })).count p (dieTel dk 0x00)
  else if what = 2 then
    let s1 := { s with poison := addOnce line s.poison }
    ((s1.modDie dk (fun d => { d with rowErr := d.rowErr.set row (max 4 (d.rowErr.get row 0)) })).count p
      (dieTel dk 0x08)).event p 0x0050 (dk % 4) (line * 128 % 2 ^ 52)
  else s

/-- R359: an error in an SRAM of a die: 3 corrected in the MSC, 4 corrected in the L2 or in a copy of a line there, which goes, 5 in a
copy of the die TLB, 6 in a dirty line of the MSC, which is written to HBM poisoned. -/
def dieSram (s : State) (dk a what : Nat) : State :=
  let p := diePkg dk
  let line := fabric p (dk % 4 * 2 ^ 37 + a) / 128
  if what = 3 then s.count p (dieTel dk 0x10)
  else if what = 4 then (s.modDie dk (fun d => d.dropL2 line)).count p (dieTel dk 0x18)
  else if what = 5 then (s.modDie dk (fun d => { d with tlb := [] })).count p (dieTel dk 0x18)
  else if what = 6 then { s with poison := addOnce line s.poison }
  else s

/-- R359: an error in an SRAM of a core: 7 corrected, 8 in a line of L1, 9 in the micro-TLB and the loop buffer, whose copies go;
uncorrectable in 10 a scratchpad word, 11 a register or tile (in the lanes `g` of a vector register, or in all), 12 a FIFO word, 13 the entry of group `g` of table index `a`. -/
def coreSram (s : State) (ck a g what : Nat) : State :=
  let ce (f : Core → Core) : State := (s.modCore ck f).countCore ck 0x18
  let ue (f : Core → Core) : State := (s.modCore ck f).countCore ck 0x20
  if what = 7 then ce id
  else if what = 8 then ce (fun c => { c with l1 := dropLine a c.l1 })
  else if what = 9 then ce (fun c => { c with tlb := [], lbuf := [] })
  else if what = 10 then ue (fun c => { c with spadUE := addOnce (a % 2 ^ 18) c.spadUE })
  else if what = 11 then ue (fun c =>
    let lanes : LaneMask := if g % 2 ^ 32 = 0 then BitVec.allOnes 32 else BitVec.ofNat 32 g
    { c with regUE := c.regUE.set (a % 4096) (c.regUE.get (a % 4096) 0 ||| lanes) })
  else if what = 12 then ue (fun c => { c with fifoUE := addOnce (a % 2 ^ 20) c.fifoUE })
  else if what = 13 then
    ue (fun c => match c.front.find a with
      | some ix => { c with front := c.front.set a { ix with poison := addOnce (g % 8) ix.poison } }
      | none => c)
  else s

/-- PATROL_SCRUB (R356, R359, R360): the MSC of die `ev.die` reads the line at `ev.addr` of its HBM, and `ev.num` says what it finds
(`scrubLine`); from 3 on, an error in an SRAM of the die, or from 7 on of core `ev.core` at `ev.addr`, with group `ev.idx` (log entry
113); `ev.flag` ends the pass, when its period is over. -/
def execPatrolScrub (s : State) : Out :=
  let n := s.ev.num
  let dk := if n < 7 then s.ev.die else dieOf s.ev.core
  let p := diePkg dk
  if !s.answers p || ((s.die dk).hbmOut && decide (n < 7)) then .next s
  else
    let a := s.ev.addr % 2 ^ 37
    let s1 := if n < 3 then scrubLine s dk a n else if n < 7 then dieSram s dk a n else coreSram s s.ev.core s.ev.addr s.ev.idx n
    .next (if s.ev.flag && decide ((s.die dk).scrubAt + scrubTicks s p ≤ s.tick) then
        (s1.modDie dk (fun d => { d with scrubAt := s.tick, rowErr := d.rowErr.filter (fun r => decide (4 ≤ r.2)) })).count p
          (dieTel dk 0x20)
      else s1)

/-- ROW_SPARE (R356): row `ev.idx` of die `ev.die`, whose errors call for it, is spared, if its bank has a spare row left. -/
def execRowSpare (s : State) : Out :=
  let dk := s.ev.die
  let p := diePkg dk
  let bank := s.ev.idx / 2 ^ 20
  let used := (s.die dk).rowSpares.get bank 0
  if (s.die dk).rowErr.get s.ev.idx 0 < 4 then .next s
  else
    let s1 := s.modDie dk (fun d => { d with rowErr := d.rowErr.erase s.ev.idx })
    if 8 ≤ used then .next (s1.event p (Config.freeCode s.free).toNat (dk % 4) s.ev.idx)
    else if !logRoom s p then .next (logRepair s1 p rRowSpared s.ev.idx)
    else
      .next ((logRepair (s1.modDie dk (fun d => { d with rowSpares := d.rowSpares.set bank (used + 1) })) p rRowSpared s.ev.idx 0
        (dk % 4)).count p (dieTel dk 0x28))

/-- The image word of a launch that lies at an IM position of a core. -/
def imageWordAt (s : State) (c : Core) (pos : Nat) : Option (Bundle × Bool) :=
  c.bases.foldl (fun r b =>
    match s.launch b.1 with
    | some l => if b.2 ≤ pos ∧ pos < b.2 + l.image.im.length then l.image.im[pos - b.2]? else r
    | none => r) none

/-- IM_POISON_REPAIR (R336): the firmware rewrites poisoned position `ev.addr` of core `ev.core` from the launch's image and discards
every fetched copy of it. -/
def execImPoisonRepair (s : State) : Out :=
  let ck := s.ev.core
  let pos := s.ev.addr
  let c := s.core ck
  if !(c.im.get pos {}).poisoned then .next s
  else
    match imageWordAt s c pos with
    | none => .next s
    | some w =>
      .next (s.setCore ck { c with
        im := c.im.set pos { bits := w.1, pool := w.2 }
        ahead := c.ahead.filter (· != pos)
        lbuf := c.lbuf.filter (fun l => !(decide (l.2.1 ≤ pos) && decide (pos ≤ l.2.2))) })

-- attestation

/-- R367: the signature of a package's identity key with a leaf. -/
def signature (p leaf : Nat) : List Byte := (List.range 5605).map (Config.freeSignature p leaf)

/-- R368, Table 16.3: the report signed with a leaf. -/
def report (s : State) (p leaf : Nat) (nonce : List Byte) : List Byte :=
  let k := s.pkg p
  leBytes 8 0x5445544139585000 ++ leBytes 8 leaf ++ nonce ++ digestBytes p 0 ++ digestBytes p (3 + k.fwImage) ++
  (match k.standby with | some n => digestBytes p (3 + n) | none => zeros 32) ++ digestBytes p 1 ++
  leBytes 32 (repairHead p k.repairs).toNat ++ leBytes 8 featOffer ++ leBytes 8 0 ++ leBytes 8 (s.devTime p) ++ zeros 24 ++
  signature p leaf

/-- ATTEST (R367, R368). -/
def execAttest (s : State) : Out :=
  beginSvc 15 s (fun p s =>
    let a := svcArg1 s p
    let b := svcArg2 s p
    let leaf := (s.pkg p).leaf
    if 2 ^ 39 < a + 32 ∨ 2 ^ 39 < b + 8192 ∨ b % 64 ≠ 0 ∨ s.reserved (.hbm (fabric p a)) ∨ s.reserved (.hbm (fabric p b)) then
      finishSvc s p 1 nOperand
    else if 2 ^ 40 ≤ leaf then finishSvc s p 1 nLeaves
    else
      let nonce := Mem.bytes s.mem (fabric p a) 32
      finishSvc ((useLeaf s p).perform (.hbm (fabric p b)) (report s p leaf nonce)) p 0)

-- power and reset

/-- DROOP_RESPONSE (R362): `ev.num` pulses of core `ev.core` are dropped; `ev.flag` says that the episode was longer than 1 µs. -/
def execDroopResponse (s : State) : Out :=
  let ck := s.ev.core
  let p := pkgOf ck
  if !s.answers p then .next s
  else
    let s1 := s.dropPulses ck (s.beforeEdge ck s.ev.num)
    .next (if s.ev.flag then s1.event p 0x0012 (pcoreOf ck) s.ev.num else s1)

/-- R362: the idle cores of a block have passed their cycles up to the present. -/
def blockNow (s : State) (p b : Nat) : State :=
  if b < 128 then (List.range 4).foldl (fun s i => s.catchUp (512 * p + 4 * b + i)) s else s

/-- THERMAL_THROTTLE (R362, R372): block `ev.num` of a package reaches the temperature `ev.val` in °C: pulses dropped out of four, or
the end of throttling. -/
def execThermalThrottle (s : State) : Out :=
  let p := s.ev.pkg
  let b := s.ev.num
  if !s.answers p then .next s
  else
    let was := ((s.pkg p).throttle.find b).isSome
    let s := blockNow s p b
    if s.ev.val < 100 then
      .next (if was then (s.modPkg p (fun k => { k with throttle := k.throttle.erase b })).event p 0x0011 (b % 65536) s.ev.val else s)
    else
      let s1 := s.modPkg p (fun k => { k with throttle := k.throttle.set b (if 108 ≤ s.ev.val then 3 else 2) })
      .next (if was then s1 else s1.event p 0x0010 (b % 65536) s.ev.val)

/-- What follows in the pod when a package stops answering on the fabric (R281, R352). -/
def lostReach (s : State) (p : Nat) : State := abortHomed s (fun d => diePkg d == p)

/-- R363, R367: DEV_TIME of a package stands with its clocks. -/
def stopTime (s : State) (p : Nat) : State := s.setUnits p (s.timeUnits p) 0

/-- THERMAL_TRIP (R363): a junction of die `ev.die` reaches 115 °C: all clocks of its package stop, and the pod no longer reaches it. -/
def execThermalTrip (s : State) : Out :=
  let p := diePkg s.ev.die
  if !(s.pkg p).running then .next s
  else .next (lostReach ((stopTime (s.event p 0x0030 (s.ev.die % 4) 0) p).modPkg p (fun k => { k with running := false, tripped := true })) p)

/-- Launches that a package holds or carries are lost with it; contexts elsewhere leave theirs. -/
def loseLaunches (s : State) (p : Nat) : State :=
  let lost := s.launches.filter (fun l => l.pkg == p)
  let s1 := { s with
    devHeld := s.devHeld.filter (fun w => w.pkg != p)
    cores := s.cores.filter (fun c => pkgOf c.1 != p)
    dies := s.dies.map (fun d => if diePkg d.1 = p then
      (d.1, { out := d.2.out, hbmOut := d.2.hbmOut, scrubAt := s.tick, banksOut := d.2.banksOut, rowSpares := d.2.rowSpares
              bankSpares := d.2.bankSpares }) else d) }
  lost.foldl (fun s l =>
    let s2 := releaseLaunchHolds ((members s l.id).foldl (fun s m => leave s m.1 m.2) s) l.id
    { s2 with launches := s2.launches.filter (fun x => x.id != l.id), cores := s2.cores.map (fun c => (c.1, coreForget l.id c.2)) }) s1

-- the boot (R369)

/-- A core number leaves service, as the boot finds it. -/
def numberOut (p n : Nat) (k : Pkg) : Pkg :=
  { k with retCores := addOnce (512 * p + n % 512) k.retCores, unmapped := addOnce (n % 512) k.unmapped }

/-- A port is out of service, by its number in a repair record. -/
def portOutOf (n : Nat) (out : Bool) (k : Pkg) : Pkg :=
  if n < 32 then { k with ports := k.ports.set n { k.ports.get n {} with out := out } }
  else { k with sports := k.sports.set (n - 32) { out := out } }

/-- A die leaves service, with its cores and its ports. -/
def dieOutOf (p d : Nat) (k : Pkg) : Pkg :=
  let k1 := (List.range 128).foldl (fun k i => numberOut p (128 * d + i) k) { k with retDies := addOnce (4 * p + d) k.retDies }
  (List.range 8).foldl (fun k i => portOutOf (8 * d + i) true k) k1

/-- R369: a record is applied to what the package holds. -/
def applyRepair (p : Nat) (k : Pkg) (r : Repair) : Pkg :=
  if r.action = rCoreRetired then numberOut p r.what k
  else if r.action = rSpareMapped then
    { k with physOf := k.physOf.set (r.what % 512) r.with_, unmapped := k.unmapped.filter (· != r.what % 512)
             retCores := k.retCores.filter (· != 512 * p + r.what % 512) }
  else if r.action = rPhysBad then { k with badPhys := addOnce r.what k.badPhys }
  else if r.action = rLaneSpared then { k with ports := k.ports.set r.what { k.ports.get r.what {} with spare := some r.with_ } }
  else if r.action = rPortOut then portOutOf r.what true k
  else if r.action = rPortIn then portOutOf r.what false k
  else if r.action = rDieRetired then dieOutOf p (r.what % 4) k
  else if r.action = rVersionRaised then { k with secVer := max k.secVer r.what }
  else k

/-- R369: core numbers that hold a physical core, as 136 d + k. -/
def numbersOn (k : Pkg) (j : Nat) : List Nat :=
  ((List.range 128).map (fun i => 128 * (j / 136) + i)).filter (fun n => k.physOf.get n (n % 128) == j % 136)

/-- R369: a record that is not applied: every core, die and port that it names is held out of service. -/
def holdOut (p : Nat) (k : Pkg) (r : Repair) : Pkg :=
  if r.action = rCoreRetired then numberOut p r.what k
  else if r.action = rSpareMapped then
    let j := 136 * (r.what % 512 / 128) + r.with_
    numberOut p r.what { k with badPhys := addOnce j k.badPhys }
  else if r.action = rPhysBad then
    (numbersOn k r.what).foldl (fun k n => numberOut p n k) { k with badPhys := addOnce r.what k.badPhys }
  else if r.action = rDieRetired then dieOutOf p (r.what % 4) k
  else if r.action = rLaneSpared ∨ r.action = rPortOut ∨ r.action = rPortIn then portOutOf r.what true k
  else k

/-- What a package keeps over a reset: its non-volatile memory, its firmware, its time and its reach, what the map says of other
packages, and the base record, with the core map that it holds (R4). -/
def keptOver (s : State) (p : Nat) (k : Pkg) : Pkg :=
  { running := true
    reachable := k.reachable
    timeBase := k.timeBase + (s.tick - k.timeAt) * k.pace
    timeAt := s.tick
    pace := if k.pace = 0 then 1000000000 else k.pace
    bootCycle := s.tick / 2
    frameAt := s.tick / Config.frameTicks * Config.frameTicks
    fwHalf := k.fwHalf
    fwVer := k.fwVer
    fwImage := k.fwImage
    standby := k.standby
    retCores := k.retCores.filter (fun c => pkgOf c != p)
    retDies := k.retDies.filter (fun d => diePkg d != p)
    physOf := k.base.map
    badPhys := k.base.bad
    leaf := k.leaf
    secVer := k.secVer
    base := k.base
    repairs := k.repairs
    leafWarned := k.leafWarned
    i3cAddr := k.i3cAddr }

/-- R369: a package as it boots with the first `n` records of its log applied, in order, and the rest held out. -/
def bootPkg (s : State) (p : Nat) (k : Pkg) (n : Nat) : Pkg :=
  (k.repairs.drop n).foldl (holdOut p) ((k.repairs.take n).foldl (applyRepair p) (keptOver s p k))

/-- R355, R356, R369: a record is applied to the dies. -/
def applyDie (p : Nat) (s : State) (r : Repair) : State :=
  let dk := 4 * p + r.die
  if r.action = rRowSpared then
    s.modDie dk (fun d => { d with rowSpares := d.rowSpares.set (r.what / 2 ^ 20) (d.rowSpares.get (r.what / 2 ^ 20) 0 + 1) })
  else if r.action = rBankSpared then
    s.modDie dk (fun d => { d with bankSpares := d.bankSpares.set r.with_ (d.bankSpares.get r.with_ 0 + 1) })
  else if r.action = rDieRetired then s.modDie (4 * p + r.what % 4) (fun d => { d with out := true, hbmOut := r.with_ != 1 })
  else s

/-- R369: a record that is not applied: the bank or the die that it names is held out of service. -/
def holdDie (p : Nat) (s : State) (r : Repair) : State :=
  let dk := 4 * p + r.die
  if r.action = rRowSpared then s.modDie dk (fun d => { d with banksOut := addOnce (r.what / 2 ^ 20) d.banksOut })
  else if r.action = rBankSpared then s.modDie dk (fun d => { d with banksOut := addOnce r.what d.banksOut })
  else if r.action = rDieRetired then s.modDie (4 * p + r.what % 4) (fun d => { d with out := true, hbmOut := true })
  else s

/-- R369: the dies of a package as it boots: the rows repaired at manufacture, then the log. -/
def bootDies (s : State) (p : Nat) (k : Pkg) (n : Nat) : State :=
  let clean := { s with dies := s.dies.map (fun d => if diePkg d.1 = p then (d.1, { scrubAt := s.tick }) else d) }
  let based := k.base.rows.foldl (fun s r => applyDie p s { action := rRowSpared, what := r.2, die := r.1 }) clean
  (k.repairs.drop n).foldl (holdDie p) ((k.repairs.take n).foldl (applyDie p) based)

/-- PACKAGE_RESET (R352, R365, R369, R370): package `ev.pkg` is reset, out of the pod's reach (R281), and boots; an image that fails
holds it in recovery; `ev.flag` says that record `ev.num` of the repair log fails verification. A package that the pod reaches
rejoins it. -/
def execPackageReset (s : State) : Out :=
  let p := s.ev.pkg
  match s.pkgs.find p with
  | none => .next s
  | some k =>
    let bad := (Config.freeVerdict s.free).toNat
    let s0 := lostReach ((loseLaunches s p).modPkg p (fun k => { k with running := false })) p
    let n := if s.ev.flag then min s.ev.num k.repairs.length else k.repairs.length
    if bad ≠ 0 then .next (s0.setPkg p { keptOver s p k with running := false, recovery := bad })
    else
      let s1 := bootDies (s0.setPkg p (bootPkg s p k n)) p k n
      let s2 := if n < k.repairs.length then s1.event p 0x0041 0 n else s1
      .next (if k.reachable then rejoin s2 p else s2)

/-- POWER_LOSS (R367): package `ev.pkg` loses power; `ev.flag` says that it was between the two writes of a leaf, which leaves that leaf
unused. -/
def execPowerLoss (s : State) : Out :=
  let p := s.ev.pkg
  match s.pkgs.find p with
  | none => .next s
  | some _ =>
    let s1 := (stopTime s p).modPkg p (fun k =>
      { k with running := false, tripped := false, recovery := 0, i3cAddr := none, leaf := if s.ev.flag then k.leaf + 1 else k.leaf })
    let s2 := lostReach (loseLaunches s1 p) p
    .next ((List.range 4).foldl (fun s d => loseHbm s (4 * p + d)) s2)

-- packages of the pod

/-- PACKAGE_UNREACHABLE (R352): package `ev.pkg` can no longer be reached over the fabric. -/
def execPackageUnreachable (s : State) : Out :=
  let p := s.ev.pkg
  match s.pkgs.find p with
  | none => .next s
  | some k =>
    if !k.reachable then .next s
    else .next (lostReach (s.modPkg p (fun k => { k with reachable := false })) p)

/-- PACKAGE_REJOINS (R352): package `ev.pkg` can be reached again. -/
def execPackageRejoins (s : State) : Out :=
  let p := s.ev.pkg
  match s.pkgs.find p with
  | none => .next s
  | some k => .next (if k.reachable then s else rejoin s p)

-- the management interface

/-- R373: the management target has power. -/
def managed (s : State) (p : Nat) : Bool :=
  match s.pkgs.find p with | some k => k.running || k.recovery != 0 || k.tripped | none => false

/-- I3C_DYNAMIC_ADDRESS (R373): ENTDAA or SETDASA gives the target the address `ev.val`. -/
def execI3cDynamicAddress (s : State) : Out :=
  let p := s.ev.pkg
  .next (if managed s p then s.modPkg p (fun k => { k with i3cAddr := some (s.ev.val % 128) }) else s)

/-- R373: the target has taken its dynamic address, at which private transfers reach it. -/
def addressed (s : State) (p : Nat) : Bool := managed s p && (s.pkg p).i3cAddr.isSome

/-- I3C_PRIVATE_WRITE (R373): three bytes set the offset. -/
def execI3cPrivateWrite (s : State) : Out :=
  let p := s.ev.pkg
  .next (if addressed s p then s.modPkg p (fun k => { k with i3cOff := s.ev.val % 2 ^ 24, i3cLatch := none }) else s)

/-- R373: a register as the management interface reads it. -/
def managedWord (s : State) (p off : Nat) : Nat :=
  let k := s.pkg p
  if k.recovery != 0 then (if off = 0x410 then 3 + k.recovery % 256 * 256 else 0)
  else if (0x100000 ≤ off ∧ off < 0x1A0000) ∨ off = 0x0 ∨ off = 0x60 ∨ off = 0x410 ∨ off = 0x418 then regWord s p off
  else if off = 0x68 then k.frac.toNat
  else 0

/-- R373: the value of the register at the read offset, where its first byte has been read before and it is still latched. -/
def managedHeld (k : Pkg) : Option Nat :=
  match k.i3cLatch with
  | some (r, v) => if r = k.i3cOff / 8 * 8 ∧ k.i3cOff % 8 ≠ 0 then some v else none
  | none => none

/-- R373: a register as a private read from offset `off` returns it. -/
def managedReg (s : State) (p off r : Nat) : Nat :=
  match managedHeld (s.pkg p) with
  | some v => if r = off / 8 * 8 then v else managedWord s p r
  | none => managedWord s p r

/-- R373: the bytes of a private read: each register is latched at its first byte. -/
def managedBytes (s : State) (p off n : Nat) : List Byte :=
  (List.range n).map (fun i => (leBytes 8 (managedReg s p off ((off + i) / 8 * 8))).getD ((off + i) % 8) 0)

/-- R373: a read latches DEV_TIME afresh, and with it DEV_FRAC. -/
def readsTime (k : Pkg) (n : Nat) : Bool :=
  decide (k.i3cOff < 0x68) && decide (0x60 < k.i3cOff + n) && ((managedHeld k).isNone || decide (k.i3cOff < 0x60)) && k.recovery == 0

/-- I3C_PRIVATE_READ (R373): `ev.num` bytes, at most 256, from the offset, which advances; a register read in part stays latched for the
read that goes on from there, and reading DEV_TIME latches DEV_FRAC. -/
def execI3cPrivateRead (s : State) : Out :=
  let p := s.ev.pkg
  if !addressed s p then .next s
  else
    let n := min s.ev.num 256
    let off := (s.pkg p).i3cOff
    let s1 := if readsTime (s.pkg p) n then s.modPkg p (fun k => { k with frac := s.devFrac p }) else s
    let last := (off + n) / 8 * 8
    .next (s1.modPkg p (fun k =>
      { k with i3cRead := managedBytes s1 p off n, i3cOff := (off + n) % 2 ^ 24
               i3cLatch := if n = 0 then k.i3cLatch else if (off + n) % 8 = 0 then none else some (last % 2 ^ 24, managedReg s1 p off last) }))

end Sys2Proof.Machine
end

