-- ==== Sys2Proof/Machine/Ports.lean ====
section
/-!
DEFINITION. Stream ports: the key and the match table (R326, R327), receive rings (R328, R329, R258), time stamps (R330) and
transmit rings (R331).
-/

namespace Sys2Proof.Machine

-- frames and keys

/-- A field of a frame in network byte order; bytes beyond the frame read 0. -/
def netField (f : List Byte) (o n : Nat) : Nat := leNat ((List.range n).map (fun i => f.getD (o + n - 1 - i) 0))

/-- `n` bytes of a frame from `o`, zeros beyond it. -/
def frameBytes (f : List Byte) (o n : Nat) : List Byte := (List.range n).map (fun i => f.getD (o + i) 0)

def isVlan (f : List Byte) (o : Nat) : Bool := netField f o 2 == 0x8100 || netField f o 2 == 0x88A8

/-- R327: where the EtherType stands, after up to two VLAN tags. -/
def typeAt (f : List Byte) : Nat := if !isVlan f 12 then 12 else if !isVlan f 16 then 16 else 20

/-- The IP version of a frame: 4, 6 or 0. -/
def ipVersion (f : List Byte) : Nat :=
  let t := netField f (typeAt f) 2
  if t = 0x0800 then 4 else if t = 0x86DD then 6 else 0

/-- IP protocol, or 0. -/
def ipProto (f : List Byte) : Nat :=
  let o := typeAt f + 2
  if ipVersion f = 4 then netField f (o + 9) 1 else if ipVersion f = 6 then netField f (o + 6) 1 else 0

/-- Where the header above IP begins. -/
def l4At (f : List Byte) : Nat :=
  let o := typeAt f + 2
  if ipVersion f = 4 then o + 4 * (netField f o 1 % 16) else o + 40

def isUdp (f : List Byte) : Bool := ipVersion f != 0 && ipProto f == 17

/-- R327: the UDP payload of a frame that is UDP, otherwise its Ethernet payload. -/
def payloadAt (f : List Byte) : Nat := if isUdp f then l4At f + 8 else typeAt f + 2

/-- R327: the 32-byte key, for a rule's POFF. -/
def frameKey (f : List Byte) (poff : Nat) : List Byte :=
  let o := typeAt f
  let v := ipVersion f
  let word (at4 at6 : Nat) : List Byte :=
    if v = 4 then frameBytes f (o + 2 + at4) 4 else if v = 6 then frameBytes f (o + 2 + at6) 4 else zeros 4
  let port (at_ : Nat) : List Byte := if isUdp f then frameBytes f (l4At f + at_) 2 else zeros 2
  let vlan : Nat := if isVlan f 12 then netField f 14 2 % 4096 else 0
  frameBytes f o 2 ++ [BitVec.ofNat 8 (vlan / 256), BitVec.ofNat 8 vlan, BitVec.ofNat 8 (ipProto f), 0] ++ port 2 ++
  word 16 36 ++ word 12 20 ++ port 0 ++ zeros 6 ++ frameBytes f (payloadAt f + poff) 8

-- matching

/-- Bytes of the match rules in force. -/
def regBytes (k : Pkg) (off n : Nat) : List Byte := (List.range (n / 8)).flatMap (fun i => leBytes 8 (k.rules.get (off + 8 * i) 0).toNat)

/-- Rule `r` in force takes a frame of a port. -/
def ruleTakes (k : Pkg) (r port : Nat) (f : List Byte) : Bool :=
  let b := 0x10000 + 128 * r
  let w := (k.rules.get (b + 0x40) 0).toNat
  let key := frameKey f (bitsOf w 28 10)
  let value := regBytes k b 32
  let mask := regBytes k (b + 0x20) 32
  bitsOf w 24 1 == 1 && bitsOf w (26 + port) 1 == 1 &&
  (List.range 32).all (fun i => (key.getD i 0 ^^^ value.getD i 0) &&& mask.getD i 0 == 0)

/-- R327: the lowest-numbered enabled rule that takes a frame. -/
def matchRule (k : Pkg) (port : Nat) (f : List Byte) : Option Nat :=
  ((k.rules.filter (fun r => r.1 % 128 == 0x40 && r.2.getLsbD 24)).map
    (fun r => (r.1 - 0x10000) / 128)).find? (fun r => ruleTakes k r port f)

-- receive rings

/-- Offset of ring `r`'s descriptor. -/
def ringAt (r : Nat) : Nat := 0x90000 + 64 * r
def ringWord (s : State) (p r o : Nat) : Nat := ((s.pkg p).regs.get (ringAt r + o) 0).toNat
def ringOn (s : State) (p r : Nat) : Bool := bitsOf (ringWord s p r 0x20) 63 1 == 1
def ringPasid (s : State) (p r : Nat) : Nat := bitsOf (ringWord s p r 0x20) 32 20

/-- R329: number of the next frame of a ring: those published and those waiting to be. -/
def nextFrame (s : State) (p r : Nat) : Nat := ringWord s p r 0x28 + ((s.pkg p).publish.filter (fun y => y.ring == r)).length

/-- Offset of a stream port's counters (Table 16.4). -/
def portTel (port : Nat) : Nat := 0x172000 + 0x100 * port

/-- Table 14.11: the record of a frame, numbered `n`, whose slot has `slot` bytes. -/
def frameRecord (s : State) (p n slot : Nat) (y : RxFrame) : List Byte :=
  let f := y.bytes
  let t := y.stamp / timeUnit % 2 ^ 64
  let len := f.length - payloadAt f
  leBytes 8 n ++
  leBytes 8 (f.length % 65536 + y.port * 2 ^ 16 + (if slot < len then 2 ^ 18 else 0) + (if isVlan f 12 then 2 ^ 19 else 0) + y.rule * 2 ^ 20) ++
  leBytes 10 (t % 1000000000 + t / 1000000000 * 2 ^ 32) ++ zeros 6 ++ leBytes 8 (s.devTime p) ++
  leBytes 8 (y.stamp % timeUnit * 65536 / timeUnit) ++ zeros 16

/-- R350: a write of a process by the device would wait. -/
def writeWaits (s : State) (p pasid a n : Nat) : Bool :=
  devWaits s p pasid || (blockPieces a n).any (fun q => match reachProc s p pasid q.1 .write with | .miss => true | _ => false)

/-- R345: some page of a process that the device would write does not translate for it. -/
def writeFaults (s : State) (p pasid a n : Nat) : Bool :=
  (blockPieces a n).any (fun q => match reachProc s p pasid q.1 .write with | .trap _ => true | _ => false)

/-- R329: a frame for a ring: dropped when it is full, else its payload and record are written; a ring whose consumer word, slot or
record faults drops it too. -/
def deliverFrame (s : State) (p : Nat) (y : RxFrame) : State :=
  let r := y.ring
  let f := y.bytes
  let dropped (s : State) : State := setReg s p (ringAt r + 0x30) (ringWord s p r 0x30 + 1)
  let w := ringWord s p r 0x20
  let n := nextFrame s p r
  let e := 2 ^ (w % 32)
  let slot := 2 ^ bitsOf w 8 4
  match procRead s p (ringPasid s p r) (ringWord s p r 0x18) 8 with
  | .error _ => dropped s
  | .ok b =>
    if e ≤ n - leNat b then dropped s
    else
      let pay := (f.drop (payloadAt f)).take slot
      let at1 := ringWord s p r 0 + n % e * slot
      let at2 := ringWord s p r 8 + 64 * (n % e)
      let s1 := (s.devWrite p (ringPasid s p r) at1 pay).devWrite p (ringPasid s p r) at2 (frameRecord s p n slot y)
      if writeFaults s p (ringPasid s p r) at1 pay.length || writeFaults s p (ringPasid s p r) at2 64 then dropped s1
      else s1.modPkg p (fun k => { k with publish := k.publish ++ [{ ring := r, num := n, port := y.port }] })

/-- R329: some rule in force sends frames of SP0 to a ring. -/
def fedByFirst (k : Pkg) (r : Nat) : Bool :=
  k.rules.any (fun w => w.1 % 128 == 0x40 && w.2.getLsbD 24 && w.2.getLsbD 26 && w.2.toNat % 4096 == r)

/-- R329, R350: a received frame must still wait: a frame of SP0 with the same time stamp could come for its ring, or a page of the
ring migrates. -/
def rxWaits (s : State) (p : Nat) (y : RxFrame) : Bool :=
  let w := ringWord s p y.ring 0x20
  let n := nextFrame s p y.ring
  let e := 2 ^ (w % 32)
  let slot := 2 ^ bitsOf w 8 4
  let pasid := ringPasid s p y.ring
  (y.port == 1 && y.at_ == s.tick && fedByFirst (s.pkg p) y.ring) || readWaits s p pasid (ringWord s p y.ring 0x18) 8 ||
  writeWaits s p pasid (ringWord s p y.ring 0 + n % e * slot) (min slot (y.bytes.length - payloadAt y.bytes)) ||
  writeWaits s p pasid (ringWord s p y.ring 8 + 64 * (n % e)) 64

/-- A stream port is out of service. -/
def streamOut (s : State) (p port : Nat) : Bool := ((s.pkg p).sports.get port {}).out

/-- R329: received frames are delivered ring by ring in their order, as far as nothing holds them; those of a port that is out stand
until it returns (R358). -/
def deliverRx : List RxFrame → List RxFrame → State → Nat → State
  | [], kept, s, p => s.modPkg p (fun k => { k with rx := kept })
  | y :: t, kept, s, p =>
    if streamOut s p y.port then deliverRx t (kept ++ [y]) s p
    else if !ringOn s p y.ring then deliverRx t kept (s.count p (portTel y.port + 0x10)) p
    else if kept.any (fun z => z.ring == y.ring && !streamOut s p z.port) || rxWaits s p y then deliverRx t (kept ++ [y]) s p
    else deliverRx t kept (deliverFrame s p y) p

/-- R329: a frame takes its place among those received: by time stamp, SP0 first. -/
def insertRx (y : RxFrame) : List RxFrame → List RxFrame
  | [] => [y]
  | z :: t => if z.at_ == y.at_ && decide (y.port < z.port) then y :: z :: t else z :: insertRx y t

/-- R326: a pause frame or a priority flow-control frame. -/
def isPause (f : List Byte) : Bool := netField f 12 2 == 0x8808 && (netField f 14 2 == 0x0001 || netField f 14 2 == 0x0101)

/-- R330: a frame of the port and the rule that PTP_CTRL names reaches the PTP clock, where that is enabled. -/
def notePtp (s : State) (p port rule : Nat) : State :=
  let w := regWord s p 0x70
  if bitsOf w 0 1 = 1 ∧ bitsOf w 1 1 = port ∧ bitsOf w 16 12 = rule then s.modPkg p (fun k => { k with ptpSeen := true }) else s

/-- R313, R326, R327, R330: a frame arrives at a port in service. -/
def receiveFrame (s : State) (p port : Nat) (f : List Byte) (good : Bool) : State :=
  let tel := portTel port
  if streamOut s p port then s
  else if !good then s.count p (tel + 8)
  else if decide (9216 < f.length) || isPause f then s
  else
    let s1 := s.count p tel
    match matchRule (s1.pkg p) port f with
    | none => s1.count p (tel + 0x10)
    | some r =>
      let w := ((s1.pkg p).rules.get (0x10000 + 128 * r + 0x40) 0).toNat
      let ring := w % 4096
      let s2 := notePtp s1 p port r
      if !(s1.pkg p).enabled || bitsOf w 25 1 = 1 || !ringOn s1 p ring then s2.count p (tel + 0x10)
      else
        let y : RxFrame := { port := port, rule := r, ring := ring, at_ := s.tick, stamp := s.timeUnits p, bytes := f }
        deliverRx (insertRx y (s2.pkg p).rx) [] s2 p

/-- FRAME_RECEIVED (R326 to R330): port `ev.num` receives the frame `ev.bytes` without its FCS; `ev.flag` says that the FCS is good. -/
def execFrameReceived (s : State) : Out :=
  if s.answers s.ev.pkg && decide (s.ev.num < 2) then .next (receiveFrame s s.ev.pkg s.ev.num s.ev.bytes s.ev.flag) else .next s

/-- R189, R329: a tagged command with the ring's TAG has been accepted on the die that holds the count word and is not yet
visible. -/
def ringHeld (s : State) (p r : Nat) : Bool :=
  match reachProc s p (ringPasid s p r) (ringWord s p r 0x10) .write with
  | .ok g => (match g.place with
    | .hbm a => (s.die (homeOf a)).tagQ.any (fun q => q.1 == bitsOf (ringWord s p r 0x20) 16 12)
    | _ => false)
  | _ => false

/-- COUNT_WORD_PUBLISH (R258, R329): received frames that nothing holds any more are delivered, and the oldest frame of ring `ev.num`
whose payload and record are written is published, in its place in the order of the ring's TAG. -/
def execCountWordPublish (s0 : State) : Out :=
  let p := s0.ev.pkg
  let r := s0.ev.num
  let s := if (s0.pkg p).rx.isEmpty then s0 else deliverRx (s0.pkg p).rx [] s0 p
  match (s.pkg p).publish.find? (fun y => y.ring == r) with
  | none => .next s
  | some y =>
    if ringHeld s p r || writeWaits s p (ringPasid s p r) (ringWord s p r 0x10) 8 then .next s
    else
    let s1 := (s.devWrite p (ringPasid s p r) (ringWord s p r 0x10) (leBytes 8 (y.num + 1))).modPkg p (fun k =>
      { k with publish := k.publish.erase y })
    .next (setReg s1 p (ringAt r + 0x28) (y.num + 1))

-- transmit

/-- R331: a range of a process lies in HBM of its package. -/
def inOwnHbm (s : State) (p pasid : Nat) (l : List (Nat × Nat)) (a : Access) : Bool :=
  l.all (fun q => match reachProc s p pasid q.1 a with
    | .ok g => (match g.place with | .hbm fa => fa / 2 ^ 52 == p | _ => false)
    | _ => false)

/-- Bytes of a process in HBM of its package. -/
def ownRead (s : State) (p pasid a n : Nat) : Option (List Byte) :=
  if !inOwnHbm s p pasid (blockPieces a n) .read then none
  else match procRead s p pasid a n with | .ok b => some b | .error _ => none

/-- R331: what becomes of a descriptor: its status, and the frame that is sent, padded to 60 bytes. -/
def txOutcome (s : State) (p port pasid : Nat) (d : Option (List Byte)) : Nat × Option (List Byte) :=
  if streamOut s p port then (4, none)
  else
    match d with
    | none => (2, none)
    | some b =>
      let n := fieldAt b 8 2
      if n = 0 ∨ 9216 < n then (3, none)
      else
        match ownRead s p pasid (fieldAt b 0 8) n with
        | none => (2, none)
        | some f => (1, some (f ++ zeros (60 - f.length)))

/-- R331, R350: the descriptor or its frame lies on a migrating page, or the status would wait. -/
def txWaits (s : State) (p pasid a : Nat) : Bool :=
  writeWaits s p pasid (a + 10) 2 || readWaits s p pasid a 16 ||
  (match ownRead s p pasid a 16 with
   | some b => readWaits s p pasid (fieldAt b 0 8) (fieldAt b 8 2)
   | none => false)

/-- R331: the port's next descriptor is finished. -/
def sendNext (s : State) (p port : Nat) : State :=
  let b := 0xD0000 + 0x100 * port
  let ctl := regWord s p (b + 8)
  let cons := regWord s p (b + 0x18)
  if bitsOf ctl 63 1 = 0 || cons == regWord s p (b + 0x10) then s
  else
    let pasid := bitsOf ctl 32 20
    let at_ := regWord s p b + 16 * (cons % 256)
    if txWaits s p pasid at_ then s
    else
    let r := txOutcome s p port pasid (ownRead s p pasid at_ 16)
    let s1 := s.devWrite p pasid (at_ + 10) (leBytes 2 r.1)
    let s2 := setReg s1 p (b + 0x18) ((cons + 1) % 2 ^ 32)
    match r.2 with
    | some f => s2.modPkg p (fun k => { k with sent := (port, f) :: k.sent })
    | none => s2

/-- TX_FRAME_SEND (R331): port `ev.num` finishes its next descriptor. -/
def execTxFrameSend (s : State) : Out :=
  if s.answers s.ev.pkg && decide (s.ev.num < 2) then .next (sendNext s s.ev.pkg s.ev.num) else .next s

end Sys2Proof.Machine
end

