-- ==== Sys2Proof/Machine/Auto.lean ====
section
/-!
DEFINITION. How the machine goes on by itself (DESIGN CHOICE: the spec orders these events only where its rules say so). The
events that could happen now are listed in a fixed order; automatic steps take turns between a cycle of the core that lags
most and the next of these events.
-/

namespace Sys2Proof.Machine

abbrev Event := Instr × EvArgs

/-- Events of an engine command. -/
def cmdEvents (s : State) (ck x n : Nat) (c : EngCmd) : List Event :=
  let a : EvArgs := { core := ck, ctx := x, ectx := n, num := c.num }
  match c.trig with
  | some h => if h.thresh ≤ (s.eng ck x h.watch).tl then [(.triggerFire, a)] else []
  | none =>
    if !c.started then (if mayStart s ck x n c then [(.engineCommandStart, a)] else [])
    else
      (if isHdst c || c.op == 0xF then [(.engineCommandProgress, a)] else []) ++
      (((List.range c.ntiles).filter (fun i => !c.fired.contains i && c.ready && flagSet s ck (flagWord s ck x c i))).map
        (fun i => (.tileFire, { a with idx := i }))) ++
      (if c.op == 9 && !c.ready then [(.collectiveTimeout, a)] else []) ++ [(.engineCommandComplete, a)]

/-- Events of a context. -/
def ctxEvents (s : State) (ck x : Nat) (c : Ctx) : List Event :=
  let a : EvArgs := { core := ck, ctx := x }
  let one (b : Bool) (i : Instr) : List Event := if b then [(i, a)] else []
  (((List.range c.loads.length).filter (fun i => i == 0 || (match c.loads[i]? with | some l => l.data.isNone | none => false))).map
    (fun i => (.loadReturn, { a with idx := i }))) ++
  one (c.walk.isSome && c.migHold.isNone) .pageWalk ++
  one (match c.migHold with | some (_, t) => decide (t ≤ s.tick) | none => false) .migReread ++
  one c.relWait.isSome .releaseHandover ++
  one c.raceReport .raceReport ++
  ((c.arch.latches.filter (fun l => fetchable c l.1)).map (fun l => (.streamFetch, { a with group := l.1 / 8, num := l.1 % 8 }))) ++
  one (!c.released.isEmpty) .outputQueueDrain ++
  one (c.resend.isSome && decide (c.resendAt ≤ s.tick)) .ticketResend ++
  (c.ec.flatMap (fun e => e.2.cmds.flatMap (cmdEvents s ck x e.1))) ++
  one (c.status == .resting) .contextSave

/-- Events of a core. -/
def coreEvents (s : State) (ck : Nat) (c : Core) : List Event :=
  let a : EvArgs := { core := ck }
  (c.ctxs.flatMap (fun k => ctxEvents s ck k.1 k.2)) ++
  (((List.range c.unitQ.length).filter (fun i => match c.unitQ[i]? with
      | some r => canServe c (c.unitQ.take i) r.joint r.ops
      | none => false)).map (fun i => (.fullEmptyService, { a with idx := i }))) ++
  ((c.im.filter (fun w => w.2.poisoned)).map (fun w => (.imPoisonRepair, { a with addr := w.1 })))

/-- Events of a die. -/
def dieEvents (dk : Nat) (d : Die) : List Event :=
  let a : EvArgs := { die := dk }
  ((List.range d.slice.length).map (fun i => (.storeAcknowledgement, { a with idx := i }))) ++
  (if d.ampQ.isEmpty then [] else [(.aeStateCommandPerform, a)]) ++
  ((d.rowErr.filter (fun r => decide (4 ≤ r.2))).map (fun r => (.rowSpare, { a with idx := r.1 })))

/-- Events of a launch. -/
def launchEvents (s : State) (l : Launch) : List Event :=
  let a : EvArgs := { launch := l.id }
  let one (b : Bool) (i : Instr) : List Event := if b then [(i, a)] else []
  ((l.barriers.filter (fun b => phaseFull s l b && barrierDue s b)).map
    (fun b => (.barrierPhaseComplete, { a with idx := b.level, num := b.unit, val := b.id }))) ++
  one (stealDue s l) .stealRound ++
  (if l.phase == .preparing then
    (l.cores.filter (fun ck => !l.prepared.contains ck && coreOpen s ck)).map (fun ck => (.gangCorePreparation, { a with core := ck }))
   else []) ++
  one (gangLate s l) .gangPreparationTimeout ++ one (gangReady l) .gangRelease ++
  one (sluiceGathered s l) .sluiceDecision ++
  one (match l.swapAt with | some (t, _) => decide (t ≤ s.tick) | none => false) .sluiceSwap ++
  (l.cores.filterMap (fun ck =>
    if coreOpen s ck && !(candidatesOf s ck l).isEmpty then (idleOf (s.core ck)).map (fun x => (.pickup, { core := ck, ctx := x }))
    else none))

/-- Events of a reduction window. -/
def windowEvents (s : State) (w : Window) : List Event :=
  ((w.contribs.map (fun c => (c.kind, c.elem))).eraseDups).filterMap (fun r =>
    let cs := roundOf w r.1 r.2
    let a : EvArgs := { num := w.id, val := r.1, idx := r.2 }
    if (roundState s w cs).2 then some (.windowRoundMerge, a)
    else if cs.foldl (fun m c => min m c.since) s.tick + w.timeout ≤ s.tick then some (.memberAbsentTimeout, a)
    else none)

/-- The event of an accepted queue command. -/
def commandEvent (op : Nat) : Instr :=
  match op with
  | 0 => .nopCommand
  | 1 => .launch
  | 2 => .write
  | 3 => .abort
  | _ => .requeue

/-- The event that begins and finishes a service request (Table 16.1). -/
def svcEvent (s : State) (p kind : Nat) : Instr :=
  match kind with
  | 1 => .shootdown
  | 2 => .preemptCores
  | 3 => .preemptLaunch
  | 4 => .reopen
  | 8 => .coreOut
  | 9 => .spareIn
  | 10 => .dieOut
  | 11 => .bankSpare
  | 12 => if portWhat s p = 4 then .portIn else if portWhat s p = 1 then .portSpareLane else .portOut
  | 13 => .scrub
  | _ => .attest

/-- A transmit ring is on and has a descriptor. -/
def sendDue (s : State) (p port : Nat) : Bool :=
  let b := 0xD0000 + 0x100 * port
  bitsOf (regWord s p (b + 8)) 63 1 == 1 && regWord s p (b + 0x18) != regWord s p (b + 0x10)

/-- Events of a package's firmware, front end and ports. -/
def pkgEvents (s : State) (p : Nat) (k : Pkg) : List Event :=
  let a : EvArgs := { pkg := p }
  (if frameDue s p then [((if 2 ≤ k.handover then Instr.firmwareHandover else .frameBoundary), a)] else []) ++
  (match k.svc with | some v => [(svcEvent s p v.kind, a)] | none => []) ++
  (if k.pending.any (fun x => decide (x.aged + agingTicks s p ≤ s.tick)) then [(.agingTick, a)] else []) ++
  (if serving s p then
    ((k.slots.filter (fun n => !k.visited.contains n.1 && slotTurn s p n.1)).map (fun n => (Instr.pollingSlotVisit, { a with num := n.1 }))) ++
    (if k.due.isEmpty then [] else [(Instr.queueTriggerFire, a)])
   else []) ++
  ((k.slots.filter (fun n => unbindDue s p n.2)).map (fun n => (.queueUnbind, { a with num := n.2 }))) ++
  (k.started.zipIdx.map (fun c => (commandEvent c.1.op, { a with idx := c.2 }))) ++
  (((List.range 2).filter (sendDue s p)).map (fun n => (.txFrameSend, { a with num := n }))) ++
  (k.publish.map (fun y => (.countWordPublish, { a with num := y.ring }))) ++
  (k.rx.map (fun y => (.countWordPublish, { a with num := y.ring }))) ++
  (k.mapSend.map (fun m => (.retirementMapUpdate, { a with pkg := m.1, num := p }))) ++
  (((List.range 4).filter (fun d => !(s.die (4 * p + d)).hbmOut && decide ((s.die (4 * p + d)).scrubAt + scrubTicks s p ≤ s.tick))).map
    (fun d => (.patrolScrub, { die := 4 * p + d, flag := true })))

/-- R350: waiting writes of the device that are read again. -/
def heldEvents (s : State) : List Event :=
  ((s.devHeld.zipIdx).filter (fun w => s.clocked w.1.pkg && decide (w.1.due ≤ s.tick) &&
    (s.devHeld.take w.2).all (fun y => y.pkg != w.1.pkg || y.pasid != w.1.pasid))).map (fun w =>
    (.migReread, { pkg := w.1.pkg, core := 512 * w.1.pkg, idx := w.2, flag := true }))

/-- The events that could happen now. -/
def State.pending (s : State) : List Event :=
  ((s.cores.filter (fun c => s.clocked (pkgOf c.1))).flatMap (fun c => coreEvents s c.1 c.2)) ++
  ((s.dies.filter (fun d => s.clocked (diePkg d.1))).flatMap (fun d => dieEvents d.1 d.2)) ++
  heldEvents s ++ (s.launches.flatMap (launchEvents s)) ++ (s.windows.flatMap (windowEvents s)) ++
  ((s.ltxs.filter (fun t => t.state == 0 && decide (t.deadline ≤ s.tick))).map
    (fun t => (.ltxTimeout, { launch := t.launch, num := t.id }))) ++
  ((s.pkgs.filter (fun k => k.2.running)).flatMap (fun k => pkgEvents s k.1 k.2))

/-- A core that has work: a resident context, or stores that it has not yet handed on. -/
def busyCore (c : Core) : Bool := !(residents c).isEmpty || !c.hand.isEmpty || !c.wbuf.isEmpty

/-- The core whose cycle comes next: of those that have work the one that lags most, else core 0 of a running package. -/
def nextCore (s : State) : Nat :=
  let l := s.cores.filter (fun c => s.clocked (pkgOf c.1) && busyCore c.2)
  match l with
  | [] => match s.pkgs.find? (fun k => k.2.running) with | some k => 512 * k.1 | none => 0
  | c :: t => (t.foldl (fun m d => if d.2.pulse < m.2.pulse then d else m) c).1

/-- What comes next when the agenda is empty. -/
def autoEvent (s : State) : Event :=
  let cycle : Event := (.bundleIssue, { core := nextCore s })
  if s.focus % 2 = 0 then cycle
  else
    let l := s.pending
    (l[s.focus / 2 % max 1 l.length]?).getD cycle

/-- Steps that happen on the core of their operands. -/
def onCore (i : Instr) : Bool :=
  [Instr.bundleIssue, .selectorRotation, .resultWrite, .beatCountExpiry, .mmaBeat, .tileBusyClear, .columnStage, .checkpoint,
   .withheldStoreDrain, .releaseHandover, .trapTaken, .raceReport, .loadReturn, .pageWalk, .migReread, .streamFetch,
   .outputQueueDrain, .rbqFillSlot, .l1invComplete, .fullEmptyService, .ticketResend, .engineCommandStart,
   .engineCommandComplete, .engineCommandProgress, .triggerFire, .tileFire, .collectiveTimeout, .pickup, .gangCorePreparation,
   .preemption, .contextSave, .imPoisonRepair, .imFetchAhead].contains i

/-- Steps that happen on the die of their operands. -/
def onDie (i : Instr) : Bool := [Instr.storeAcknowledgement, .aeStateCommandPerform, .rowSpare].contains i

/-- Steps of a launch, which its package's distributors, firmware and held transactions make. -/
def ofLaunch (i : Instr) : Bool :=
  [Instr.barrierPhaseComplete, .stealRound, .gangPreparationTimeout, .gangRelease, .sluiceDecision, .sluiceSwap, .ltxTimeout].contains i

/-- Steps that happen in the package of their operands. -/
def inPackage (i : Instr) : Bool := [Instr.countWordPublish, .txFrameSend, .retirementMapUpdate, .nopCommand, .launch, .write, .abort, .requeue].contains i

/-- R363, R365, R367: nothing happens on a core or die, to a launch or in a package whose clocks stand still. -/
def State.stands (s : State) (i : Instr) (e : EvArgs) : Bool :=
  (onCore i && !s.clocked (pkgOf e.core)) || (onDie i && !s.clocked (diePkg e.die)) ||
  (ofLaunch i && (match s.launch e.launch with | some l => !s.clocked l.pkg | none => false)) ||
  (inPackage i && !s.clocked e.pkg)

end Sys2Proof.Machine
end

