-- ==== Sys2Proof/Machine/Dispatch.lean ====
section
/-!
DEFINITION. One arm per constructor of `Instr`: the meaning of each instruction and step, called by name.
-/

namespace Sys2Proof.Machine

/-- The meaning of an instruction: slot forms and entries act on the bundle in `State.frame`, steps on the operands in
`State.ev`. -/
def exec (i : Instr) (s : State) : Host.Outcome State Fault Refusal :=
  match i with
  | .nop => Sys2Proof.Machine.execNop s
  | .add x1 x2 x3 => Sys2Proof.Machine.execAdd x1 x2 x3 s
  | .sub x1 x2 x3 => Sys2Proof.Machine.execSub x1 x2 x3 s
  | .mul x1 x2 x3 => Sys2Proof.Machine.execMul x1 x2 x3 s
  | .mulh x1 x2 x3 => Sys2Proof.Machine.execMulh x1 x2 x3 s
  | .mulhn x1 x2 x3 => Sys2Proof.Machine.execMulhn x1 x2 x3 s
  | .div x1 x2 x3 => Sys2Proof.Machine.execDiv x1 x2 x3 s
  | .divn x1 x2 x3 => Sys2Proof.Machine.execDivn x1 x2 x3 s
  | .rem x1 x2 x3 => Sys2Proof.Machine.execRem x1 x2 x3 s
  | .remn x1 x2 x3 => Sys2Proof.Machine.execRemn x1 x2 x3 s
  | .and x1 x2 x3 => Sys2Proof.Machine.execAnd x1 x2 x3 s
  | .or x1 x2 x3 => Sys2Proof.Machine.execOr x1 x2 x3 s
  | .xor x1 x2 x3 => Sys2Proof.Machine.execXor x1 x2 x3 s
  | .andn x1 x2 x3 => Sys2Proof.Machine.execAndn x1 x2 x3 s
  | .shl x1 x2 x3 => Sys2Proof.Machine.execShl x1 x2 x3 s
  | .shrl x1 x2 x3 => Sys2Proof.Machine.execShrl x1 x2 x3 s
  | .shra x1 x2 x3 => Sys2Proof.Machine.execShra x1 x2 x3 s
  | .rotl x1 x2 x3 => Sys2Proof.Machine.execRotl x1 x2 x3 s
  | .min x1 x2 x3 => Sys2Proof.Machine.execMin x1 x2 x3 s
  | .max x1 x2 x3 => Sys2Proof.Machine.execMax x1 x2 x3 s
  | .minn x1 x2 x3 => Sys2Proof.Machine.execMinn x1 x2 x3 s
  | .maxn x1 x2 x3 => Sys2Proof.Machine.execMaxn x1 x2 x3 s
  | .clz x1 x2 => Sys2Proof.Machine.execClz x1 x2 s
  | .ctz x1 x2 => Sys2Proof.Machine.execCtz x1 x2 s
  | .popc x1 x2 => Sys2Proof.Machine.execPopc x1 x2 s
  | .addx x1 x2 x3 x4 x5 => Sys2Proof.Machine.execAddx x1 x2 x3 x4 x5 s
  | .sel x1 x2 x3 x4 => Sys2Proof.Machine.execSel x1 x2 x3 x4 s
  | .addi x1 x2 x3 => Sys2Proof.Machine.execAddi x1 x2 x3 s
  | .andi x1 x2 x3 => Sys2Proof.Machine.execAndi x1 x2 x3 s
  | .ori x1 x2 x3 => Sys2Proof.Machine.execOri x1 x2 x3 s
  | .xori x1 x2 x3 => Sys2Proof.Machine.execXori x1 x2 x3 s
  | .shli x1 x2 x3 => Sys2Proof.Machine.execShli x1 x2 x3 s
  | .shrli x1 x2 x3 => Sys2Proof.Machine.execShrli x1 x2 x3 s
  | .shrai x1 x2 x3 => Sys2Proof.Machine.execShrai x1 x2 x3 s
  | .li x1 x2 => Sys2Proof.Machine.execLi x1 x2 s
  | .lih x1 x2 x3 => Sys2Proof.Machine.execLih x1 x2 x3 s
  | .cmpCc x1 x2 x3 x4 => Sys2Proof.Machine.execCmpCc x1 x2 x3 x4 s
  | .cmpiCc x1 x2 x3 => Sys2Proof.Machine.execCmpiCc x1 x2 x3 s
  | .pand x1 x2 x3 => Sys2Proof.Machine.execPand x1 x2 x3 s
  | .por x1 x2 x3 => Sys2Proof.Machine.execPor x1 x2 x3 s
  | .pxor x1 x2 x3 => Sys2Proof.Machine.execPxor x1 x2 x3 s
  | .pnot x1 x2 => Sys2Proof.Machine.execPnot x1 x2 s
  | .gets x1 x2 => Sys2Proof.Machine.execGets x1 x2 s
  | .puts x1 x2 => Sys2Proof.Machine.execPuts x1 x2 s
  | .br x1 x2 x3 => Sys2Proof.Machine.execBr x1 x2 x3 s
  | .bri x1 => Sys2Proof.Machine.execBri x1 s
  | .call x1 x2 x3 => Sys2Proof.Machine.execCall x1 x2 x3 s
  | .ret x1 => Sys2Proof.Machine.execRet x1 s
  | .loop x1 x2 x3 => Sys2Proof.Machine.execLoop x1 x2 x3 s
  | .loopm x1 x2 x3 x4 => Sys2Proof.Machine.execLoopm x1 x2 x3 x4 s
  | .lstride x1 x2 x3 x4 => Sys2Proof.Machine.execLstride x1 x2 x3 x4 s
  | .dispatch x1 x2 x3 => Sys2Proof.Machine.execDispatch x1 x2 x3 s
  | .yield => Sys2Proof.Machine.execYield s
  | .yieldPark => Sys2Proof.Machine.execYieldPark s
  | .exit => Sys2Proof.Machine.execExit s
  | .trap x1 => Sys2Proof.Machine.execTrap x1 s
  | .waitt x1 x2 x3 => Sys2Proof.Machine.execWaitt x1 x2 x3 s
  | .scopeSet x1 x2 => Sys2Proof.Machine.execScopeSet x1 x2 s
  | .scopeLoad x1 => Sys2Proof.Machine.execScopeLoad x1 s
  | .sluice => Sys2Proof.Machine.execSluice s
  | .ldb x1 x2 x3 x4 x5 x6 x7 => Sys2Proof.Machine.execLdb x1 x2 x3 x4 x5 x6 x7 s
  | .ldbn x1 x2 x3 x4 x5 x6 x7 => Sys2Proof.Machine.execLdbn x1 x2 x3 x4 x5 x6 x7 s
  | .ldh x1 x2 x3 x4 x5 x6 x7 => Sys2Proof.Machine.execLdh x1 x2 x3 x4 x5 x6 x7 s
  | .ldhn x1 x2 x3 x4 x5 x6 x7 => Sys2Proof.Machine.execLdhn x1 x2 x3 x4 x5 x6 x7 s
  | .ldw x1 x2 x3 x4 x5 x6 x7 => Sys2Proof.Machine.execLdw x1 x2 x3 x4 x5 x6 x7 s
  | .ldwn x1 x2 x3 x4 x5 x6 x7 => Sys2Proof.Machine.execLdwn x1 x2 x3 x4 x5 x6 x7 s
  | .ldd x1 x2 x3 x4 x5 x6 x7 => Sys2Proof.Machine.execLdd x1 x2 x3 x4 x5 x6 x7 s
  | .stb x1 x2 x3 x4 x5 x6 => Sys2Proof.Machine.execStb x1 x2 x3 x4 x5 x6 s
  | .sth x1 x2 x3 x4 x5 x6 => Sys2Proof.Machine.execSth x1 x2 x3 x4 x5 x6 s
  | .stw x1 x2 x3 x4 x5 x6 => Sys2Proof.Machine.execStw x1 x2 x3 x4 x5 x6 s
  | .std x1 x2 x3 x4 x5 x6 => Sys2Proof.Machine.execStd x1 x2 x3 x4 x5 x6 s
  | .ldfull x1 x2 x3 x4 x5 => Sys2Proof.Machine.execLdfull x1 x2 x3 x4 x5 s
  | .ldtake x1 x2 x3 x4 x5 => Sys2Proof.Machine.execLdtake x1 x2 x3 x4 x5 s
  | .stfill x1 x2 x3 x4 x5 => Sys2Proof.Machine.execStfill x1 x2 x3 x4 x5 s
  | .stforce x1 x2 x3 x4 x5 => Sys2Proof.Machine.execStforce x1 x2 x3 x4 x5 s
  | .fetag x1 x2 x3 => Sys2Proof.Machine.execFetag x1 x2 x3 s
  | .feset x1 x2 x3 => Sys2Proof.Machine.execFeset x1 x2 x3 s
  | .atomAdd x1 x2 x3 x4 x5 x6 => Sys2Proof.Machine.execAtomAdd x1 x2 x3 x4 x5 x6 s
  | .atomAnd x1 x2 x3 x4 x5 x6 => Sys2Proof.Machine.execAtomAnd x1 x2 x3 x4 x5 x6 s
  | .atomOr x1 x2 x3 x4 x5 x6 => Sys2Proof.Machine.execAtomOr x1 x2 x3 x4 x5 x6 s
  | .atomXor x1 x2 x3 x4 x5 x6 => Sys2Proof.Machine.execAtomXor x1 x2 x3 x4 x5 x6 s
  | .atomMin x1 x2 x3 x4 x5 x6 => Sys2Proof.Machine.execAtomMin x1 x2 x3 x4 x5 x6 s
  | .atomMax x1 x2 x3 x4 x5 x6 => Sys2Proof.Machine.execAtomMax x1 x2 x3 x4 x5 x6 s
  | .atomMinn x1 x2 x3 x4 x5 x6 => Sys2Proof.Machine.execAtomMinn x1 x2 x3 x4 x5 x6 s
  | .atomMaxn x1 x2 x3 x4 x5 x6 => Sys2Proof.Machine.execAtomMaxn x1 x2 x3 x4 x5 x6 s
  | .atomSwap x1 x2 x3 x4 x5 x6 => Sys2Proof.Machine.execAtomSwap x1 x2 x3 x4 x5 x6 s
  | .atomCas x1 x2 x3 x4 x5 x6 => Sys2Proof.Machine.execAtomCas x1 x2 x3 x4 x5 x6 s
  | .atomFadd x1 x2 x3 x4 x5 => Sys2Proof.Machine.execAtomFadd x1 x2 x3 x4 x5 s
  | .atomFmin x1 x2 x3 x4 x5 => Sys2Proof.Machine.execAtomFmin x1 x2 x3 x4 x5 s
  | .atomFmax x1 x2 x3 x4 x5 => Sys2Proof.Machine.execAtomFmax x1 x2 x3 x4 x5 s
  | .redAdd x1 x2 x3 x4 x5 => Sys2Proof.Machine.execRedAdd x1 x2 x3 x4 x5 s
  | .redAnd x1 x2 x3 x4 x5 => Sys2Proof.Machine.execRedAnd x1 x2 x3 x4 x5 s
  | .redOr x1 x2 x3 x4 x5 => Sys2Proof.Machine.execRedOr x1 x2 x3 x4 x5 s
  | .redXor x1 x2 x3 x4 x5 => Sys2Proof.Machine.execRedXor x1 x2 x3 x4 x5 s
  | .redMin x1 x2 x3 x4 x5 => Sys2Proof.Machine.execRedMin x1 x2 x3 x4 x5 s
  | .redMax x1 x2 x3 x4 x5 => Sys2Proof.Machine.execRedMax x1 x2 x3 x4 x5 s
  | .redMinn x1 x2 x3 x4 x5 => Sys2Proof.Machine.execRedMinn x1 x2 x3 x4 x5 s
  | .redMaxn x1 x2 x3 x4 x5 => Sys2Proof.Machine.execRedMaxn x1 x2 x3 x4 x5 s
  | .redFadd x1 x2 x3 x4 => Sys2Proof.Machine.execRedFadd x1 x2 x3 x4 s
  | .redFmin x1 x2 x3 x4 => Sys2Proof.Machine.execRedFmin x1 x2 x3 x4 s
  | .redFmax x1 x2 x3 x4 => Sys2Proof.Machine.execRedFmax x1 x2 x3 x4 s
  | .fenceAcq x1 => Sys2Proof.Machine.execFenceAcq x1 s
  | .fenceRel x1 => Sys2Proof.Machine.execFenceRel x1 s
  | .fenceAr x1 => Sys2Proof.Machine.execFenceAr x1 s
  | .qmark => Sys2Proof.Machine.execQmark s
  | .tktTake x1 x2 x3 x4 => Sys2Proof.Machine.execTktTake x1 x2 x3 x4 s
  | .tktServe x1 x2 x3 => Sys2Proof.Machine.execTktServe x1 x2 x3 s
  | .tktWait x1 x2 x3 x4 => Sys2Proof.Machine.execTktWait x1 x2 x3 x4 s
  | .barArrive x1 x2 x3 x4 => Sys2Proof.Machine.execBarArrive x1 x2 x3 x4 s
  | .barWait x1 x2 x3 x4 => Sys2Proof.Machine.execBarWait x1 x2 x3 x4 s
  | .sbind x1 x2 x3 x4 x5 => Sys2Proof.Machine.execSbind x1 x2 x3 x4 x5 s
  | .sstop x1 x2 x3 => Sys2Proof.Machine.execSstop x1 x2 x3 s
  | .srewind x1 x2 x3 => Sys2Proof.Machine.execSrewind x1 x2 x3 s
  | .cbinit x1 x2 x3 x4 => Sys2Proof.Machine.execCbinit x1 x2 x3 x4 s
  | .cbadv x1 x2 x3 => Sys2Proof.Machine.execCbadv x1 x2 x3 s
  | .l1inv => Sys2Proof.Machine.execL1inv s
  | .pref x1 x2 x3 x4 => Sys2Proof.Machine.execPref x1 x2 x3 x4 s
  | .bx x1 x2 => Sys2Proof.Machine.execBx x1 x2 s
  | .bxm x1 x2 x3 => Sys2Proof.Machine.execBxm x1 x2 x3 s
  | .copy x1 x2 x3 x4 x5 => Sys2Proof.Machine.execCopy x1 x2 x3 x4 x5 s
  | .copyx x1 x2 x3 x4 x5 => Sys2Proof.Machine.execCopyx x1 x2 x3 x4 x5 s
  | .gather x1 x2 x3 => Sys2Proof.Machine.execGather x1 x2 x3 s
  | .scatter x1 x2 x3 => Sys2Proof.Machine.execScatter x1 x2 x3 s
  | .tload x1 x2 => Sys2Proof.Machine.execTload x1 x2 s
  | .tseal x1 x2 => Sys2Proof.Machine.execTseal x1 x2 s
  | .smload x1 x2 x3 => Sys2Proof.Machine.execSmload x1 x2 x3 s
  | .imload x1 x2 => Sys2Proof.Machine.execImload x1 x2 s
  | .coll x1 x2 x3 => Sys2Proof.Machine.execColl x1 x2 x3 s
  | .tready x1 x2 x3 => Sys2Proof.Machine.execTready x1 x2 x3 s
  | .mldr x1 x2 x3 => Sys2Proof.Machine.execMldr x1 x2 x3 s
  | .mred x1 x2 x3 => Sys2Proof.Machine.execMred x1 x2 x3 s
  | .route x1 x2 x3 => Sys2Proof.Machine.execRoute x1 x2 x3 s
  | .ltxOpen x1 x2 x3 => Sys2Proof.Machine.execLtxOpen x1 x2 x3 s
  | .ltxCommit x1 x2 x3 x4 => Sys2Proof.Machine.execLtxCommit x1 x2 x3 x4 s
  | .ltxAbort x1 x2 x3 x4 => Sys2Proof.Machine.execLtxAbort x1 x2 x3 x4 s
  | .aeMap x1 x2 x3 => Sys2Proof.Machine.execAeMap x1 x2 x3 s
  | .aeMapMatrices x1 x2 x3 => Sys2Proof.Machine.execAeMapMatrices x1 x2 x3 s
  | .aeMapUnmap x1 x2 x3 => Sys2Proof.Machine.execAeMapUnmap x1 x2 x3 s
  | .aeGate x1 x2 x3 => Sys2Proof.Machine.execAeGate x1 x2 x3 s
  | .aeSwap x1 x2 x3 => Sys2Proof.Machine.execAeSwap x1 x2 x3 s
  | .aeNorm x1 x2 x3 => Sys2Proof.Machine.execAeNorm x1 x2 x3 s
  | .aeProj x1 x2 x3 => Sys2Proof.Machine.execAeProj x1 x2 x3 s
  | .trig x1 x2 => Sys2Proof.Machine.execTrig x1 x2 s
  | .cancel x1 x2 x3 => Sys2Proof.Machine.execCancel x1 x2 x3 s
  | .xnop => Sys2Proof.Machine.execXnop s
  | .cload x1 x2 x3 x4 x5 => Sys2Proof.Machine.execCload x1 x2 x3 x4 x5 s
  | .ctag x1 x2 x3 x4 => Sys2Proof.Machine.execCtag x1 x2 x3 x4 s
  | .cstore x1 x2 x3 x4 x5 => Sys2Proof.Machine.execCstore x1 x2 x3 x4 x5 s
  | .cx x1 x2 x3 x4 x5 => Sys2Proof.Machine.execCx x1 x2 x3 x4 x5 s
  | .cclr x1 x2 => Sys2Proof.Machine.execCclr x1 x2 s
  | .rngseed x1 x2 => Sys2Proof.Machine.execRngseed x1 x2 s
  | .rngctl x1 x2 => Sys2Proof.Machine.execRngctl x1 x2 s
  | .entryNop => Sys2Proof.Machine.execEntryNop s
  | .vadd x1 => Sys2Proof.Machine.execVadd x1 s
  | .vsub x1 => Sys2Proof.Machine.execVsub x1 s
  | .vmul x1 => Sys2Proof.Machine.execVmul x1 s
  | .vmulh x1 => Sys2Proof.Machine.execVmulh x1 s
  | .vmad x1 => Sys2Proof.Machine.execVmad x1 s
  | .vdp4 x1 => Sys2Proof.Machine.execVdp4 x1 s
  | .vand x1 => Sys2Proof.Machine.execVand x1 s
  | .vor x1 => Sys2Proof.Machine.execVor x1 s
  | .vxor x1 => Sys2Proof.Machine.execVxor x1 s
  | .vshl x1 => Sys2Proof.Machine.execVshl x1 s
  | .vshrl x1 => Sys2Proof.Machine.execVshrl x1 s
  | .vshra x1 => Sys2Proof.Machine.execVshra x1 s
  | .vmin x1 => Sys2Proof.Machine.execVmin x1 s
  | .vmax x1 => Sys2Proof.Machine.execVmax x1 s
  | .vabs x1 => Sys2Proof.Machine.execVabs x1 s
  | .vneg x1 => Sys2Proof.Machine.execVneg x1 s
  | .vcmpCc x1 => Sys2Proof.Machine.execVcmpCc x1 s
  | .vsel x1 => Sys2Proof.Machine.execVsel x1 s
  | .vpopc x1 => Sys2Proof.Machine.execVpopc x1 s
  | .vclz x1 => Sys2Proof.Machine.execVclz x1 s
  | .vfadd x1 => Sys2Proof.Machine.execVfadd x1 s
  | .vfsub x1 => Sys2Proof.Machine.execVfsub x1 s
  | .vfmul x1 => Sys2Proof.Machine.execVfmul x1 s
  | .vfma x1 => Sys2Proof.Machine.execVfma x1 s
  | .vfmin x1 => Sys2Proof.Machine.execVfmin x1 s
  | .vfmax x1 => Sys2Proof.Machine.execVfmax x1 s
  | .vfabs x1 => Sys2Proof.Machine.execVfabs x1 s
  | .vfcmpCc x1 => Sys2Proof.Machine.execVfcmpCc x1 s
  | .vfrcp x1 => Sys2Proof.Machine.execVfrcp x1 s
  | .vfrsq x1 => Sys2Proof.Machine.execVfrsq x1 s
  | .vfexp2 x1 => Sys2Proof.Machine.execVfexp2 x1 s
  | .vflog2 x1 => Sys2Proof.Machine.execVflog2 x1 s
  | .vcvt x1 => Sys2Proof.Machine.execVcvt x1 s
  | .vquant x1 => Sys2Proof.Machine.execVquant x1 s
  | .vdequant x1 => Sys2Proof.Machine.execVdequant x1 s
  | .vpack x1 => Sys2Proof.Machine.execVpack x1 s
  | .vunpack x1 => Sys2Proof.Machine.execVunpack x1 s
  | .vlmul x1 => Sys2Proof.Machine.execVlmul x1 s
  | .vlsum x1 => Sys2Proof.Machine.execVlsum x1 s
  | .vperm x1 => Sys2Proof.Machine.execVperm x1 s
  | .vbcast x1 => Sys2Proof.Machine.execVbcast x1 s
  | .vreduce x1 => Sys2Proof.Machine.execVreduce x1 s
  | .vscan x1 => Sys2Proof.Machine.execVscan x1 s
  | .viota x1 => Sys2Proof.Machine.execViota x1 s
  | .mand x1 => Sys2Proof.Machine.execMand x1 s
  | .mor x1 => Sys2Proof.Machine.execMor x1 s
  | .mnot x1 => Sys2Proof.Machine.execMnot x1 s
  | .mset x1 => Sys2Proof.Machine.execMset x1 s
  | .spld x1 => Sys2Proof.Machine.execSpld x1 s
  | .spst x1 => Sys2Proof.Machine.execSpst x1 s
  | .spldx x1 => Sys2Proof.Machine.execSpldx x1 s
  | .spstx x1 => Sys2Proof.Machine.execSpstx x1 s
  | .spldFull x1 => Sys2Proof.Machine.execSpldFull x1 s
  | .spstEmpty x1 => Sys2Proof.Machine.execSpstEmpty x1 s
  | .spatomAdd x1 => Sys2Proof.Machine.execSpatomAdd x1 s
  | .vshn x1 => Sys2Proof.Machine.execVshn x1 s
  | .gadd x1 => Sys2Proof.Machine.execGadd x1 s
  | .gli x1 => Sys2Proof.Machine.execGli x1 s
  | .gmov x1 => Sys2Proof.Machine.execGmov x1 s
  | .gmovVector x1 => Sys2Proof.Machine.execGmovVector x1 s
  | .mma x1 => Sys2Proof.Machine.execMma x1 s
  | .mmaSp x1 => Sys2Proof.Machine.execMmaSp x1 s
  | .mzero x1 => Sys2Proof.Machine.execMzero x1 s
  | .mdrain x1 => Sys2Proof.Machine.execMdrain x1 s
  | .mfeed x1 => Sys2Proof.Machine.execMfeed x1 s
  | .vblk x1 => Sys2Proof.Machine.execVblk x1 s
  | .bundleIssue => Sys2Proof.Machine.execBundleIssue s
  | .selectorRotation => Sys2Proof.Machine.execSelectorRotation s
  | .resultWrite => Sys2Proof.Machine.execResultWrite s
  | .beatCountExpiry => Sys2Proof.Machine.execBeatCountExpiry s
  | .mmaBeat => Sys2Proof.Machine.execMmaBeat s
  | .tileBusyClear => Sys2Proof.Machine.execTileBusyClear s
  | .columnStage => Sys2Proof.Machine.execColumnStage s
  | .checkpoint => Sys2Proof.Machine.execCheckpoint s
  | .withheldStoreDrain => Sys2Proof.Machine.execWithheldStoreDrain s
  | .releaseHandover => Sys2Proof.Machine.execReleaseHandover s
  | .storeAcknowledgement => Sys2Proof.Machine.execStoreAcknowledgement s
  | .trapTaken => Sys2Proof.Machine.execTrapTaken s
  | .raceReport => Sys2Proof.Machine.execRaceReport s
  | .loadReturn => Sys2Proof.Machine.execLoadReturn s
  | .pageWalk => Sys2Proof.Machine.execPageWalk s
  | .migReread => Sys2Proof.Machine.execMigReread s
  | .streamFetch => Sys2Proof.Machine.execStreamFetch s
  | .outputQueueDrain => Sys2Proof.Machine.execOutputQueueDrain s
  | .rbqFillSlot => Sys2Proof.Machine.execRbqFillSlot s
  | .l1invComplete => Sys2Proof.Machine.execL1invComplete s
  | .fullEmptyService => Sys2Proof.Machine.execFullEmptyService s
  | .ticketResend => Sys2Proof.Machine.execTicketResend s
  | .barrierPhaseComplete => Sys2Proof.Machine.execBarrierPhaseComplete s
  | .engineCommandStart => Sys2Proof.Machine.execEngineCommandStart s
  | .engineCommandComplete => Sys2Proof.Machine.execEngineCommandComplete s
  | .triggerFire => Sys2Proof.Machine.execTriggerFire s
  | .tileFire => Sys2Proof.Machine.execTileFire s
  | .windowRoundMerge => Sys2Proof.Machine.execWindowRoundMerge s
  | .memberAbsentTimeout => Sys2Proof.Machine.execMemberAbsentTimeout s
  | .collectiveTimeout => Sys2Proof.Machine.execCollectiveTimeout s
  | .ltxTimeout => Sys2Proof.Machine.execLtxTimeout s
  | .aeStateCommandPerform => Sys2Proof.Machine.execAeStateCommandPerform s
  | .pickup => Sys2Proof.Machine.execPickup s
  | .stealRound => Sys2Proof.Machine.execStealRound s
  | .gangCorePreparation => Sys2Proof.Machine.execGangCorePreparation s
  | .gangPreparationTimeout => Sys2Proof.Machine.execGangPreparationTimeout s
  | .gangRelease => Sys2Proof.Machine.execGangRelease s
  | .sluiceDecision => Sys2Proof.Machine.execSluiceDecision s
  | .sluiceSwap => Sys2Proof.Machine.execSluiceSwap s
  | .preemption => Sys2Proof.Machine.execPreemption s
  | .contextSave => Sys2Proof.Machine.execContextSave s
  | .patrolScrub => Sys2Proof.Machine.execPatrolScrub s
  | .rowSpare => Sys2Proof.Machine.execRowSpare s
  | .imPoisonRepair => Sys2Proof.Machine.execImPoisonRepair s
  | .laneFault => Sys2Proof.Machine.execLaneFault s
  | .droopResponse => Sys2Proof.Machine.execDroopResponse s
  | .thermalThrottle => Sys2Proof.Machine.execThermalThrottle s
  | .thermalTrip => Sys2Proof.Machine.execThermalTrip s
  | .packageReset => Sys2Proof.Machine.execPackageReset s
  | .retirementMapUpdate => Sys2Proof.Machine.execRetirementMapUpdate s
  | .frameReceived => Sys2Proof.Machine.execFrameReceived s
  | .countWordPublish => Sys2Proof.Machine.execCountWordPublish s
  | .txFrameSend => Sys2Proof.Machine.execTxFrameSend s
  | .pollingSlotVisit => Sys2Proof.Machine.execPollingSlotVisit s
  | .frameBoundary => Sys2Proof.Machine.execFrameBoundary s
  | .agingTick => Sys2Proof.Machine.execAgingTick s
  | .queueUnbind => Sys2Proof.Machine.execQueueUnbind s
  | .queueTriggerFire => Sys2Proof.Machine.execQueueTriggerFire s
  | .notify => Sys2Proof.Machine.execNotify s
  | .queueEnable => Sys2Proof.Machine.execQueueEnable s
  | .queueDisable => Sys2Proof.Machine.execQueueDisable s
  | .nopCommand => Sys2Proof.Machine.execNopCommand s
  | .launch => Sys2Proof.Machine.execLaunch s
  | .write => Sys2Proof.Machine.execWrite s
  | .abort => Sys2Proof.Machine.execAbort s
  | .requeue => Sys2Proof.Machine.execRequeue s
  | .deviceEnable => Sys2Proof.Machine.execDeviceEnable s
  | .deviceDisable => Sys2Proof.Machine.execDeviceDisable s
  | .devTimeRead => Sys2Proof.Machine.execDevTimeRead s
  | .timeSet => Sys2Proof.Machine.execTimeSet s
  | .fwLoad => Sys2Proof.Machine.execFwLoad s
  | .fwSwitch => Sys2Proof.Machine.execFwSwitch s
  | .firmwareHandover => Sys2Proof.Machine.execFirmwareHandover s
  | .ringEnable => Sys2Proof.Machine.execRingEnable s
  | .txEnable => Sys2Proof.Machine.execTxEnable s
  | .txprod => Sys2Proof.Machine.execTxprod s
  | .registerWrite => Sys2Proof.Machine.execRegisterWrite s
  | .shootdown => Sys2Proof.Machine.execShootdown s
  | .preemptCores => Sys2Proof.Machine.execPreemptCores s
  | .preemptLaunch => Sys2Proof.Machine.execPreemptLaunch s
  | .reopen => Sys2Proof.Machine.execReopen s
  | .coreOut => Sys2Proof.Machine.execCoreOut s
  | .spareIn => Sys2Proof.Machine.execSpareIn s
  | .dieOut => Sys2Proof.Machine.execDieOut s
  | .bankSpare => Sys2Proof.Machine.execBankSpare s
  | .portOut => Sys2Proof.Machine.execPortOut s
  | .portIn => Sys2Proof.Machine.execPortIn s
  | .portSpareLane => Sys2Proof.Machine.execPortSpareLane s
  | .scrub => Sys2Proof.Machine.execScrub s
  | .attest => Sys2Proof.Machine.execAttest s
  | .i3cDynamicAddress => Sys2Proof.Machine.execI3cDynamicAddress s
  | .i3cPrivateWrite => Sys2Proof.Machine.execI3cPrivateWrite s
  | .i3cPrivateRead => Sys2Proof.Machine.execI3cPrivateRead s
  | .engineCommandProgress => Sys2Proof.Machine.execEngineCommandProgress s
  | .bar4WindowAccess => Sys2Proof.Machine.execBar4WindowAccess s
  | .packageUnreachable => Sys2Proof.Machine.execPackageUnreachable s
  | .packageRejoins => Sys2Proof.Machine.execPackageRejoins s
  | .powerLoss => Sys2Proof.Machine.execPowerLoss s
  | .imFetchAhead => Sys2Proof.Machine.execImFetchAhead s

end Sys2Proof.Machine
end

