-- ==== Sys2Proof/Machine/Step.lean ====
section
/-!
DEFINITION. One step of the machine: the next event of the agenda, or, with an empty agenda, the event that comes by itself;
and a state in which a given instruction is the next to issue.
-/

namespace Sys2Proof.Machine

/-- The state in which an event is performed: its operands, and the number of the step. -/
def State.atEvent (s : State) (e : EvArgs) : State := { s with ev := e, free := s.free + 1 }

/-- An event happens; on a core or die whose clocks stand still, nothing does. -/
def runEvent (s : State) (e : Event) : Host.Outcome State Fault Refusal :=
  if s.stands e.1 e.2 then .next (s.atEvent e.2) else runStep exec e.1 (s.atEvent e.2)

/-- One step. -/
def step (s : State) : Host.Outcome State Fault Refusal :=
  match s.agenda with
  | e :: t => if slotOf e.1 = .step then runEvent { s with agenda := t } e else .refused .notAStep
  | [] =>
    if s.pkgs.any (fun k => k.2.running) then runEvent { s with focus := s.focus + 1 } (autoEvent s) else .fault .clocksStopped

/-- The bundle that holds a word of the opcode table as its only form, with the literal that the form requires; a group-table entry
comes under index 0. -/
def probeBundle (nbits w : Nat) : Bundle :=
  if nbits = 64 then bundleOf 0 0 0 0 0x40000000 0 0 0
  else
    match decodeTableWord nbits w with
    | none => bundleOf 0 w 0 0 0 0 0 0
    | some i =>
      let lit := litKind i == .required
      let at_ (k : Nat) (h : Nat) : Bundle :=
        bundleOf (if lit then h * 2 ^ 21 else 0) (if k = 1 then w else 0) 0 (if k = 3 then w else 0) (if k = 4 then w else 0)
          (if k = 5 then w else 0) (if k = 6 then w else 0) (if lit then 1 else 0)
      match slotOf i with
      | .a => at_ 3 3
      | .g => at_ 4 0
      | .e => at_ 5 4
      | .x => at_ 6 5
      | _ => at_ 1 1

/-- The front bank that goes with it: the entry in group 0 of index 0, or an empty index where a broadcast form names it. -/
def probeBank (nbits w : Nat) : Bank :=
  if nbits = 64 then
    let e := BitVec.ofNat 64 w
    [(0, { cls := bits w 55 3, commit := (match entryInstr e with | some i => commitsIndex i | none => false),
           entries := [e, 0, 0, 0, 0, 0, 0, 0] })]
  else
    match decodeTableWord nbits w with
    | some (.bx i _) => [(i.toNat, { cls := 0, commit := false, entries := [0, 0, 0, 0, 0, 0, 0, 0] })]
    | some (.bxm i _ _) => [(i.toNat, { cls := 0, commit := false, entries := [0, 0, 0, 0, 0, 0, 0, 0] })]
    | _ => []

/-- The windows of the context that runs it: all that Table 3.13 lets one context declare. -/
def probeWindows : Windows :=
  { vregs := 48, tiles := 8, handles := 6, mxu := true, latches := 8, queues := 4, tcount := 8, spad := 1048576, bars := [4, 4, 4, 4, 4] }

/-- Context 0 of core 0 is about to issue the instruction, as after a launch of a one-bundle image (R93, R221). -/
def State.withFetchWord (s : State) (nbits w : Nat) : State :=
  let b := probeBundle nbits w
  let id := s.nextLaunch
  let l : Launch := { id := id, pkg := 0, desc := 0, pasid := 0, cmd := { q := 0, words := [] }, cores := [0],
                      image := { win := probeWindows, features := 7, im := [(b, false)], hasTable := true } }
  let c : Ctx := { status := .ready, launch := id, win := probeWindows }
  let k : Core := { s.core 0 with ctxs := [(0, c)], im := [(0, { bits := b })], bases := [(id, 0)], owner := some id,
                                  front := probeBank nbits w, selCtx := 0, selHeld := 0 }
  { s.setCore 0 k with launches := s.launches ++ [l], nextLaunch := id + 1, agenda := [(.bundleIssue, { core := 0 })] }

end Sys2Proof.Machine
end

