-- ==== Sys2Proof/Safety.lean ====
section
/-!
DEFINITION. What counts as a safe run, and the terms in which claims speak of what a form leaves unchanged: the canonical form of
every memory, steps and runs, the stops of the machine, and frames of scalar registers, predicates and memory.
-/

namespace Sys2Proof.Machine

/-- The memories of a core are in canonical form: its scratchpad and its MXU FIFOs. -/
def Core.memWf (c : Core) : Prop := Memory.wf c.spad = true ∧ ∀ p ∈ c.fifos, Memory.wf p.2 = true

/-- Every memory of the pod is in canonical form, the scratchpad that a bundle in progress reads among them. -/
def State.memWf (s : State) : Prop :=
  Memory.wf s.mem = true ∧ (∀ p ∈ s.cores, p.2.memWf) ∧ Memory.wf s.frame.spad = true

/-- The machine goes from one state to another in one step. -/
def Steps (s t : State) : Prop := step s = .next t

/-- Runs of any number of steps. -/
inductive Reaches : State → State → Prop
  | refl (s : State) : Reaches s s
  | tail {s t u : State} : Reaches s t → Steps t u → Reaches s u

/-- A state from which no run stops: the safe runs of the machine. -/
def SafeFrom (s : State) : Prop := ∀ t, Reaches s t → ∃ u, Steps t u

/-- Nothing comes next: the agenda is empty and no package of the pod has a running clock. -/
def State.dark (s : State) : Bool := s.agenda.isEmpty && !s.pkgs.any (fun k => k.2.running)

/-- The agenda's head is a slot form or an entry, which come only with a bundle. -/
def State.misplaced (s : State) : Bool :=
  match s.agenda with
  | e :: _ => slotOf e.1 != .step
  | [] => false

/-- Every byte of memory and of every scratchpad reads as before. -/
def SameMemory (s t : State) : Prop :=
  (∀ a, Mem.rd t.mem a = Mem.rd s.mem a) ∧ ∀ k a, Mem.rd (t.core k).spad a = Mem.rd (s.core k).spad a

/-- A scalar register of the context whose bundle is performed, as a later bundle reads it. -/
def State.nowS (s : State) (r : BitVec 5) : Word := s.me.arch.readS r.toNat

/-- A predicate of the context whose bundle is performed, as a later bundle reads it. -/
def State.nowP (s : State) (k : BitVec 3) : Bool := readP s.me.arch.p k.toNat

/-- From `s` to `t` nothing has changed but the scalar registers of the context whose bundle is performed and the cycles from which
they are usable. -/
def OnlyScalars (s t : State) : Prop :=
  t = s.arch (fun a => { a with s := t.me.arch.s, sReady := t.me.arch.sReady })

/-- From `s` to `t` nothing has changed but predicates of the context whose bundle is performed. -/
def OnlyPreds (s t : State) : Prop := t = s.arch (fun a => { a with p := t.me.arch.p })

/-- From `s` to `t` the scalar registers are those of `s`, but `d`, which holds `v`; s0 and s31 are no registers (R14). -/
def ScalarWritten (s t : State) (d : BitVec 5) (v : Word) : Prop :=
  ∀ r : BitVec 5, t.nowS r = if r = d ∧ r ≠ 0 ∧ r ≠ 31 then v else s.nowS r

/-- A form writes one scalar register, usable from cycle `ready` on (0: by the next bundle), and changes nothing else. -/
def WritesS (i : Instr) (s : State) (d : BitVec 5) (v : Word) (ready : Nat) : Prop :=
  ∃ t, exec i s = .next t ∧ ScalarWritten s t d v ∧ (d ≠ 0 → t.me.arch.sReady.get d.toNat 0 = ready) ∧ OnlyScalars s t ∧
    SameMemory s t

/-- From `s` to `t` the predicates are those of `s`, but `k`, which holds `v`; p0 is no predicate (R14). -/
def PredWritten (s t : State) (k : BitVec 3) (v : Bool) : Prop :=
  ∀ q : BitVec 3, t.nowP q = if q = k ∧ q ≠ 0 then v else s.nowP q

/-- A form writes one predicate and changes nothing else. -/
def WritesP (i : Instr) (s : State) (k : BitVec 3) (v : Bool) : Prop :=
  ∃ t, exec i s = .next t ∧ PredWritten s t k v ∧ OnlyPreds s t ∧ SameMemory s t

/-- From `s` to `t` the `n` bytes from offset `o` of core `k`'s scratchpad have taken the value `v`, and every other byte of every
scratchpad and of memory is as it was. -/
def SpadWritten (s t : State) (k o n v : Nat) : Prop :=
  (∀ c a, Mem.rd (t.core c).spad a =
    if c = k ∧ o ≤ a ∧ a < o + n then BitVec.ofNat 8 (v / 2 ^ (8 * (a - o))) else Mem.rd (s.core c).spad a) ∧
  ∀ a, Mem.rd t.mem a = Mem.rd s.mem a

/-- From `s` to `t` the `n` bytes of memory from `fa` have taken the value `v`, and every other byte of memory and of every scratchpad
is as it was. -/
def HbmWritten (s t : State) (fa n v : Nat) : Prop :=
  (∀ a, Mem.rd t.mem a = if fa ≤ a ∧ a < fa + n then BitVec.ofNat 8 (v / 2 ^ (8 * (a - fa))) else Mem.rd s.mem a) ∧
  ∀ c a, Mem.rd (t.core c).spad a = Mem.rd (s.core c).spad a

/-- R126: from `s` to `t` destination `d` has come to wait for the load numbered `s.me.nextLoad`: a new LDQ entry for d = 0, the
register otherwise. -/
def Awaits (s t : State) (d : BitVec 5) : Prop :=
  t.me.nextLoad = s.me.nextLoad + 1 ∧
  (d = 0 → t.me.arch.ldq = s.me.arch.ldq ++ [{ id := s.me.nextLoad, val := none }]) ∧
  (d ≠ 0 → t.me.arch.sWait.find d.toNat = some s.me.nextLoad)

/-- R129, R139: the acquire that a returning form makes as its value is written: under scope `sc`, whose entry is as the bundle
found it, for acq (1) and ar (3). -/
def acquireOf (s : State) (sc : BitVec 5) (o : BitVec 3) : Option (Nat × Scope) :=
  if o = 1 ∨ o = 3 then some (sc.toNat, s.scopeNow sc.toNat) else none

/-- R126, R128: from `s` to `t` the value `v` has been read for destination `d` and is on its way to it, with the acquire that the
ordering `o` makes of it. -/
def Returns (s t : State) (d : BitVec 5) (v : Word) (sc : BitVec 5) (o : BitVec 3) : Prop :=
  Awaits s t d ∧ ∃ l ∈ t.me.loads, l.id = s.me.nextLoad ∧ l.dst = d.toNat ∧ l.data = some v ∧ l.acq = acquireOf s sc o

/-- R130, R253, R261: what a form with the ordering `o` has been as it passes: with rel (2) or ar (3) a release, for which every store
that it covers was acknowledged at its scope's point and which closes the context's interval; else no release. -/
def Releases (s t : State) (sc : BitVec 5) (o : BitVec 3) : Prop :=
  if o = 2 ∨ o = 3 then
    unacked s s.frame.core s.frame.ctx (s.scopeNow sc.toNat).point = false ∧ t.me.interval = s.me.interval + 1 ∧
      t.me.lastSc = sc.toNat ∧ t.me.lastGen = (s.scopeNow sc.toNat).gen
  else t.me.interval = s.me.interval ∧ t.me.lastSc = s.me.lastSc ∧ t.me.lastGen = s.me.lastGen

/-- Where a write of bytes by an engine of a context lands in HBM: from `at_` of its address on, by translations that the die's TLB holds
(R347), on pages that are not race-checked. -/
def Placed (s : State) (ck x : Nat) (at_ : Nat → Nat) (w : EWrite) : Prop :=
  w.mask = none ∧ ∀ p ∈ blockPieces w.va w.bytes.length, aperture s ck x p.1 = none ∧ ∃ y pc pg,
    (s.die (ck / 128)).tlbFind (s.ctx ck x).pasid p.1 = some y ∧
    leafTarget s (ck / 512) (s.ctx ck x).pasid p.1 y.va y.size y.leaf .write =
      .ok { place := .hbm (at_ w.va + (p.1 - w.va)), pc := pc, race := 0, page := pg }

/-- Memory after a write that lands at `at_` of its address. -/
def putWrite (at_ : Nat → Nat) (m : Mem) (w : EWrite) : Mem := Mem.put m (at_ w.va) w.bytes

/-- R26, R245: the stores that an output entry's bytes become, one for each of its ranges in turn. -/
def entryStores (c : Ctx) (ck x rd : Nat) : List (Target × Nat) → List Byte → List Store
  | [], _ => []
  | (t, n) :: r, bs => { mkStore c ck x t (bs.take n) with rd := rd } :: entryStores c ck x rd r (bs.drop n)

/-- A scratchpad after an output entry's bytes have been written to its ranges there. -/
def entryPuts : Mem → List (Target × Nat) → List Byte → Mem
  | m, [], _ => m
  | m, (t, n) :: r, bs => entryPuts (Mem.put m t.place.key.2 (bs.take n)) r (bs.drop n)

/-- Every line of another package has left a die's L2 (R244). -/
def NoRemoteLines (t : State) (dk : Nat) : Prop := ∀ q ∈ (t.die dk).l2, ∀ y ∈ q.2, 128 * y.addr / 2 ^ 52 = diePkg dk

/-- R129, R133, R244, R261: from `s` to `t` the context has made an acquire under scope `sc`: its interval is closed, no unconsumed entry
of a latch is left, and, from point 3 on, no line of another package in the die's L2. -/
def Acquires (s t : State) (sc : BitVec 5) : Prop :=
  t.me.interval = s.me.interval + 1 ∧ t.me.lastSc = sc.toNat ∧ t.me.lastGen = (s.scopeNow sc.toNat).gen ∧
  (∀ k, ∀ y ∈ t.me.latchBuf.get k [], y.num < (s.me.arch.latches.get k {}).pos) ∧
  (3 ≤ (s.scopeNow sc.toNat).point → NoRemoteLines t (s.frame.core / 128))

/-- R137, R138, Table 5.4: every `atom` and `red` form whose gate is open completes: of the location's bytes, which hold `old n` in the
state `at_ n`, a form of `n` bytes leaves the new value, `wrote` saying where and that nothing else is written; an `atom` returns the old
value, a `red` returns nothing. R139: each is the release, and an `atom` the acquire, that its ordering says. The 16-byte compare-and-swap is not among them. -/
def AtomicForms (s : State) (d b x : BitVec 5) (z : BitVec 3) (sc : BitVec 5) (o : BitVec 3) (old : Nat → Nat) (wrote : State → Nat → Nat → Prop) : Prop :=
  let ea := s.ea b
  let atom (i : Instr) (op n : Nat) (new : Nat → Nat) : Prop :=
    o.toNat ≤ 3 → atomGate ea op n sc o true s = .go → ldqGate d 1 s = .go →
    ∃ t, exec i s = .next t ∧ wrote t n (new (old n)) ∧ Returns s t d (BitVec.ofNat 64 (old n)) sc o ∧ Releases s t sc o
  let red (i : Instr) (op n : Nat) (new : Nat → Nat) : Prop :=
    o = 0 ∨ o = 2 → atomGate ea op n sc o false s = .go →
    ∃ t, exec i s = .next t ∧ wrote t n (new (old n)) ∧ t.me.arch = s.me.arch ∧ Releases s t sc o ∧
      t.me.loads = (performAllLoads s s.frame.core s.frame.ctx).me.loads
  let n := sizeOf_ z
  let m := 2 ^ (8 * n)
  let v := (s.srcS x).toNat % m
  let int (a : Nat) : Int := (BitVec.ofNat (8 * n) a).toInt
  let add (a : Nat) : Nat := (a + v) % m
  let min_ (a : Nat) : Nat := if int a ≤ int v then a else v
  let max_ (a : Nat) : Nat := if int a ≤ int v then v else a
  let w := (s.srcS x).toNat % 2 ^ 32
  atom (.atomAdd d b x z sc o) 0 n add ∧ atom (.atomAnd d b x z sc o) 1 n (· &&& v) ∧ atom (.atomOr d b x z sc o) 2 n (· ||| v) ∧
  atom (.atomXor d b x z sc o) 3 n (· ^^^ v) ∧ atom (.atomMin d b x z sc o) 4 n min_ ∧ atom (.atomMax d b x z sc o) 5 n max_ ∧
  atom (.atomMinn d b x z sc o) 6 n (min · v) ∧ atom (.atomMaxn d b x z sc o) 7 n (max · v) ∧
  atom (.atomSwap d b x z sc o) 8 n (fun _ => v) ∧
  (z ≠ 2 → atom (.atomCas d b x z sc o) 9 n
    (fun a => if a = (s.srcS x).toNat % m then (s.srcS (x + 1)).toNat % m else a)) ∧
  atom (.atomFadd d b x sc o) 10 4 (fun a => addF 0 a w) ∧ atom (.atomFmin d b x sc o) 11 4 (fun a => minmaxF false a w) ∧
  atom (.atomFmax d b x sc o) 12 4 (fun a => minmaxF true a w) ∧
  red (.redAdd b x z sc o) 0 n add ∧ red (.redAnd b x z sc o) 1 n (· &&& v) ∧ red (.redOr b x z sc o) 2 n (· ||| v) ∧
  red (.redXor b x z sc o) 3 n (· ^^^ v) ∧ red (.redMin b x z sc o) 4 n min_ ∧ red (.redMax b x z sc o) 5 n max_ ∧
  red (.redMinn b x z sc o) 6 n (min · v) ∧ red (.redMaxn b x z sc o) 7 n (max · v) ∧
  red (.redFadd b x sc o) 10 4 (fun a => addF 0 a w) ∧ red (.redFmin b x sc o) 11 4 (fun a => minmaxF false a w) ∧
  red (.redFmax b x sc o) 12 4 (fun a => minmaxF true a w)

/-- From `s` to `t` nothing has changed but results in flight, entries of output queues and shadows of vector registers of the context
whose bundle is performed. -/
def OnlyResults (s t : State) : Prop :=
  SameMemory s t ∧ t.modMe (fun c => c) = s.modMe (fun c => { c with
    inflight := t.me.inflight
    shadowV := t.me.shadowV
    arch := { c.arch with queues := t.me.arch.queues, held := t.me.arch.held } })

/-- R20, R26, R153, R154: from `s` to `t` an entry's result with lanes `f`, active lanes `m`, has started for destination code `d`: a
vector register (48 codes) takes it at the end of cycle `s.dueCycle` in the active lanes, an output queue (4 codes) gets its next
entry, zero outside them, any other code takes nothing. -/
def ResultStarts (s t : State) (d : BitVec 6) (m : LaneMask) (f : Nat → Lane) : Prop :=
  let g := s.frame.grp
  let key := 8 * g + (d.toNat - 48)
  OnlyResults s t ∧
  (d.toNat < 48 → t.me.arch = s.me.arch ∧ ∃ p, t.me.inflight = s.me.inflight ++ [p] ∧ p.group = g ∧ p.dest = .vreg d.toNat ∧
    p.lanes = m ∧ p.due = s.dueCycle ∧ ∀ l, l < 32 → laneOf p.data l = f l) ∧
  (∀ b, 48 ≤ d.toNat → d.toNat < 52 → s.me.arch.queues.find key = some b →
    t.me.arch.queues.find key = some { b with pos := b.pos + 1 } ∧
    t.me.arch.held = s.me.arch.held ++ [{ group := g, queue := d.toNat - 48, num := b.pos, desc := b.desc, data := none }] ∧
    ∃ p, t.me.inflight = s.me.inflight ++ [p] ∧ p.group = g ∧ p.dest = .queue s.me.arch.held.length ∧ p.due = s.dueCycle ∧
      ∀ l, l < 32 → laneOf p.data l = if m.getLsbD l then f l else 0) ∧
  (52 ≤ d.toNat → t.me.arch = s.me.arch ∧ ∀ p ∈ t.me.inflight, p ∈ s.me.inflight ∨ p.dest = .none)

/-- R36: from `s` to `t` the context whose bundle is performed has taken a trap: it is back at its last checkpoint without its withheld
stores, and it rests with the cause and TCAUSE (bundle index, code, cause), or, with nothing left to wait for, its record is disposed of at
once; nothing more of the bundle is performed. -/
def Traps (s : State) (cause code : Nat) (t : State) : Prop :=
  let f := s.frame
  let r : RestInfo := { kind := 1, cause := cause, tcause := BitVec.ofNat 64 (f.pc % 2 ^ 32 * 2 ^ 32 + code % 2 ^ 16 * 2 ^ 16 + cause % 256) }
  let u := stopCtx s f.core f.ctx r
  (u.ctx f.core f.ctx).arch = s.me.snap ∧ (u.ctx f.core f.ctx).status = .resting ∧ (u.ctx f.core f.ctx).rest = some r ∧
  (∀ st ∈ (u.core f.core).wbuf, st.ctx ≠ f.ctx) ∧ t.frame = { f with todo := [], gone := true } ∧
  { t with frame := f } = { (if atRest u f.core f.ctx then finishRest u f.core f.ctx else u) with frame := f }

/-- A lane-wise entry starts its result and does nothing else. -/
def LaneForm (i : Instr) (s : State) (e : Entry) (m : LaneMask) (f : Nat → Lane) : Prop :=
  ∃ t, exec i s = .next t ∧ ResultStarts s t e.d m f

end Sys2Proof.Machine
end

