-- ==== Sys2Proof/Certificates/Slice0/Obligations.lean ====
section
/-!
DEFINITION. The statements about the model: one definition each, to be proved elsewhere. A docstring names the rules of the spec
that a statement formalises.
-/

open Sys2Proof Sys2Proof.Machine

-- the control core

/-- R12, R14, R99, R100, R11 to R12: the integer forms of the next-bundle class write D with the function of A and B (or the literal), and
leave everything else as it is. R15, R43, R100: multiplication is usable 3 cycles later, division 20; division by zero gives all ones, its
remainder A. -/
def Obligations.integer_forms : Prop :=
  (∀ (s : State) (d a b : BitVec 5),
  let x := s.srcS a
  let y := s.src2 b
  let n := y.toNat % 64
  WritesS (.add d a b) s d (x + y) 0 ∧ WritesS (.sub d a b) s d (x - y) 0 ∧
  WritesS (.and d a b) s d (x &&& y) 0 ∧ WritesS (.or d a b) s d (x ||| y) 0 ∧
  WritesS (.xor d a b) s d (x ^^^ y) 0 ∧ WritesS (.andn d a b) s d (x &&& ~~~ y) 0 ∧
  WritesS (.shl d a b) s d (x <<< n) 0 ∧ WritesS (.shrl d a b) s d (x >>> n) 0 ∧
  WritesS (.shra d a b) s d (BitVec.ofInt 64 (x.toInt / 2 ^ n)) 0 ∧
  WritesS (.rotl d a b) s d (x <<< n ||| x >>> (64 - n)) 0 ∧
  WritesS (.min d a b) s d (BitVec.ofInt 64 (min x.toInt y.toInt)) 0 ∧
  WritesS (.max d a b) s d (BitVec.ofInt 64 (max x.toInt y.toInt)) 0 ∧
  WritesS (.minn d a b) s d (BitVec.ofNat 64 (min x.toNat y.toNat)) 0 ∧
  WritesS (.maxn d a b) s d (BitVec.ofNat 64 (max x.toNat y.toNat)) 0) ∧
  (∀ (s : State) (d a b : BitVec 5),
  let x := s.srcS a
  let y := s.src2 b
  let t := (s.core s.frame.core).cycle
  WritesS (.mul d a b) s d (BitVec.ofNat 64 (x.toNat * y.toNat)) (t + 3) ∧
  WritesS (.mulh d a b) s d (BitVec.ofInt 64 (x.toInt * y.toInt / 2 ^ 64)) (t + 3) ∧
  WritesS (.mulhn d a b) s d (BitVec.ofNat 64 (x.toNat * y.toNat / 2 ^ 64)) (t + 3) ∧
  WritesS (.div d a b) s d (if y = 0 then BitVec.allOnes 64 else BitVec.ofInt 64 (x.toInt.tdiv y.toInt)) (t + 20) ∧
  WritesS (.divn d a b) s d (if y = 0 then BitVec.allOnes 64 else BitVec.ofNat 64 (x.toNat / y.toNat)) (t + 20) ∧
  WritesS (.rem d a b) s d (if y = 0 then x else BitVec.ofInt 64 (x.toInt.tmod y.toInt)) (t + 20) ∧
  WritesS (.remn d a b) s d (if y = 0 then x else BitVec.ofNat 64 (x.toNat % y.toNat)) (t + 20))

/-- R100 to R103: counting forms, immediates, constants and select. -/
def Obligations.unary_and_immediate_forms : Prop := ∀ (s : State) (d a b : BitVec 5) (c : BitVec 3) (i : BitVec 16) (n : BitVec 6),
  let x := s.srcS a
  let lit : Word := s.frame.lit.signExtend 64
  WritesS (.clz d a) s d (BitVec.ofNat 64 (((List.range 64).find? (fun k => x.getLsbD (63 - k))).getD 64)) 0 ∧
  WritesS (.ctz d a) s d (BitVec.ofNat 64 (((List.range 64).find? (fun k => x.getLsbD k)).getD 64)) 0 ∧
  WritesS (.popc d a) s d (BitVec.ofNat 64 (((List.range 64).filter (fun k => x.getLsbD k)).length)) 0 ∧
  WritesS (.addi d a i) s d (x + i.signExtend 64) 0 ∧ WritesS (.andi d a i) s d (x &&& i.setWidth 64) 0 ∧
  WritesS (.ori d a i) s d (x ||| i.setWidth 64) 0 ∧ WritesS (.xori d a i) s d (x ^^^ i.setWidth 64) 0 ∧
  WritesS (.shli d a n) s d (x <<< n.toNat) 0 ∧ WritesS (.shrli d a n) s d (x >>> n.toNat) 0 ∧
  WritesS (.shrai d a n) s d (x.sshiftRight n.toNat) 0 ∧
  WritesS (.li d i) s d (if s.frame.hasLit then lit else i.signExtend 64) 0 ∧
  WritesS (.lih d a i) s d
    (BitVec.ofNat 64 ((if s.frame.hasLit then s.frame.lit.toNat else i.toNat) * 2 ^ 32 + x.toNat % 2 ^ 32)) 0 ∧
  WritesS (.sel d a b c) s d (if s.srcP c then x else s.src2 b) 0

/-- R14, R104, R105, Table 4.3: compares and predicate logic write one predicate. R76: the S-slot no-operation changes nothing. R101:
`addx` writes D with the low 64 bits of A + B + p[C] and predicate K with bit 64. -/
def Obligations.predicate_and_carry_forms : Prop :=
  (∀ (s : State) (p q r : BitVec 3) (a b : BitVec 5) (c : BitVec 4),
  let holds (y : Word) : Bool :=
    let x := s.srcS a
    match c.toNat with
    | 0 => decide (x = y)
    | 1 => decide (x ≠ y)
    | 2 => decide (x.toInt < y.toInt)
    | 3 => decide (x.toInt ≥ y.toInt)
    | 4 => decide (x.toNat < y.toNat)
    | 5 => decide (x.toNat ≥ y.toNat)
    | 6 => decide (x.toInt > y.toInt)
    | 7 => decide (x.toInt ≤ y.toInt)
    | 8 => decide (x.toNat > y.toNat)
    | _ => decide (x.toNat ≤ y.toNat)
  WritesP (.cmpCc p a b c) s p (holds (s.srcS b)) ∧ WritesP (.cmpiCc p a c) s p (holds (s.frame.lit.signExtend 64)) ∧
  WritesP (.pand p q r) s p (s.srcP q && s.srcP r) ∧ WritesP (.por p q r) s p (s.srcP q || s.srcP r) ∧
  WritesP (.pxor p q r) s p (s.srcP q ^^ s.srcP r) ∧ WritesP (.pnot p q) s p (!s.srcP q)) ∧
  (∀ (s : State) (d a b : BitVec 5) (k c : BitVec 3),
  let sum := (s.srcS a).toNat + (s.src2 b).toNat + (if s.srcP c then 1 else 0)
  exec .nop s = .next s ∧
  ∃ t, exec (.addx d a b k c) s = .next t ∧ ScalarWritten s t d (BitVec.ofNat 64 sum) ∧
    PredWritten s t k (decide (2 ^ 64 ≤ sum)) ∧ SameMemory s t ∧
    t = s.arch (fun r => { r with s := t.me.arch.s, sReady := t.me.arch.sReady, p := t.me.arch.p }))

/-- R106, Table 4.4: `gets` writes D with the special register's value as it stood before the bundle; R330: DEV_TIME is the
present of the package's clock in ns, modulo 2^64, and reading it latches the fraction in DEV_FRAC and changes nothing else besides.
R330 (chapter 14) gives DEV_TIME and DEV_FRAC; that they count the model's tick is its choice (log entry 12). -/
def Obligations.gets_reads_special_registers : Prop := ∀ (s : State) (d : BitVec 5),
  let f := s.frame
  let c := f.was
  let p := f.core / 512
  let cycle := (s.core f.core).cycle
  let units := (s.pkg p).timeBase + (s.tick - (s.pkg p).timeAt) * (s.pkg p).pace
  WritesS (.gets d 0x0000) s d (BitVec.ofNat 64 (s.physCore f.core % 256 * 2 ^ 32 + p % 512 * 2 ^ 16 + f.core % 512)) 0 ∧
  WritesS (.gets d 0x0001) s d (BitVec.ofNat 64 f.ctx) 0 ∧ WritesS (.gets d 0x0003) s d (c.devFrac.setWidth 64) 0 ∧
  WritesS (.gets d 0x0004) s d (BitVec.ofNat 64 (cycle - (s.pkg p).bootCycle)) 0 ∧
  WritesS (.gets d 0x0008) s d ((s.pkg p).regs.get 0x20 0) 0 ∧ WritesS (.gets d 0x0009) s d ((s.pkg p).regs.get 0x28 0) 0 ∧
  WritesS (.gets d 0x0010) s d f.old.rngKey 0 ∧ WritesS (.gets d 0x0011) s d (BitVec.ofNat 64 f.old.rfill) 0 ∧
  WritesS (.gets d 0x0018) s d c.fstat 0 ∧ WritesS (.gets d 0x0019) s d (c.terr.setWidth 64) 0 ∧
  WritesS (.gets d 0x0020) s d c.item 0 ∧ WritesS (.gets d 0x0021) s d c.frame 0 ∧
  WritesS (.gets d 0x0022) s d (c.args.get 0 0) 0 ∧ WritesS (.gets d 0x0023) s d (c.args.get 1 0) 0 ∧
  WritesS (.gets d 0x0024) s d (c.args.get 2 0) 0 ∧ WritesS (.gets d 0x0025) s d (BitVec.ofNat 64 c.prio) 0 ∧
  WritesS (.gets d 0x0026) s d (BitVec.ofNat 64 c.scopeTab) 0 ∧ WritesS (.gets d 0x0038) s d c.tcause 0 ∧
  (∀ n : Nat, n < 6 →
    let l := f.old.loops.get n {}
    WritesS (.gets d (BitVec.ofNat 16 (0x28 + n))) s d (if l.run then BitVec.ofNat 64 l.iter else 0) 0) ∧
  (∀ j : Nat, j < 6 → WritesS (.gets d (BitVec.ofNat 16 (0x30 + j))) s d (qmapWord (s.die (f.core / 128)) j) 0) ∧
  ∃ t, exec (.gets d 0x0002) s = .next t ∧
    ScalarWritten s t d (BitVec.ofNat 64 (units / 3000000000)) ∧ SameMemory s t ∧
    t = (s.arch (fun r => { r with s := t.me.arch.s, sReady := t.me.arch.sReady })).modMe
      (fun k => { k with devFrac := BitVec.ofNat 16 (units % 3000000000 * 65536 / 3000000000) })

/-- R106, R107, R69: `puts` writes exactly the special register it names: FSTAT keeps bit 0 only, a one in TERR clears its bit, PRIO is
clamped to the launch's priority; every other number changes nothing. -/
def Obligations.puts_writes_one_special_register : Prop := ∀ (s : State) (a : BitVec 5),
  let v := s.srcS a
  exec (.puts a 0x0010) s = .next (s.modMe (fun c => { c with arch := { c.arch with rngKey := v } })) ∧
  exec (.puts a 0x0018) s = .next (s.modMe (fun c => { c with fstat := BitVec.ofNat 64 (v.toNat % 2) })) ∧
  exec (.puts a 0x0019) s = .next (s.modMe (fun c => { c with terr := c.terr &&& ~~~ v.setWidth 8 })) ∧
  exec (.puts a 0x0021) s = .next (s.modMe (fun c => { c with frame := v })) ∧
  exec (.puts a 0x0022) s = .next (s.modMe (fun c => { c with args := c.args.set 0 v })) ∧
  exec (.puts a 0x0023) s = .next (s.modMe (fun c => { c with args := c.args.set 1 v })) ∧
  exec (.puts a 0x0024) s = .next (s.modMe (fun c => { c with args := c.args.set 2 v })) ∧
  (∀ n : BitVec 16, n ∉ [0x0010, 0x0018, 0x0019, 0x0021, 0x0022, 0x0023, 0x0024, 0x0025] →
    exec (.puts a n) s = .next (s.modMe (fun c => c))) ∧
  ∀ l, s.launchOf s.frame.core s.frame.ctx = some l →
    exec (.puts a 0x0025) s = .next (s.modMe (fun c => { c with prio := min (v.toNat % 128) l.prio }))

/-- R28, R108, R109: a taken branch names the bundle index where the context goes on, and changes nothing else; `call` also writes PC + 1
to s30, `ret` is counted; a branch not taken changes nothing. R28, R29, R114: where a context goes on after a bundle: at the target of a taken
branch, two bubbles later. Else the levels that end at the bundle come in their order, the highest first: one with a count above one goes back
to its first bundle, with the count and the iteration number moved by one; the levels above it that ended with it are over; every level whose
body lies inside the one that goes back, and that is over, is set back to its whole count; and each of its strides is added to its register, or,
for one that waits for a load, to the value that arrives. When no level goes back, those that end are over and the next bundle follows. -/
def Obligations.branches_and_bundle_ends : Prop :=
  (∀ (s : State) (p : BitVec 3) (n : BitVec 1) (o : BitVec 22) (a : BitVec 5),
  let f := s.frame
  let rel := ((f.pc : Int) + o.toInt) % 2 ^ 32
  let goes (u : State) (k : Nat) : State := { u with frame := { u.frame with target := some k } }
  let reg := (s.srcS a).toNat % 2 ^ 32
  (s.srcP p = (n == 1) → exec (.br p n o) s = .next s ∧ exec (.call p n o) s = .next s) ∧
  (s.srcP p ≠ (n == 1) → exec (.br p n o) s = .next (goes s rel.toNat) ∧
    ∃ t, exec (.call p n o) s = .next (goes t rel.toNat) ∧
      ScalarWritten s t 30 (BitVec.ofNat 64 ((f.pc + 1) % 2 ^ 32)) ∧ OnlyScalars s t) ∧
  exec (.bri a) s = .next (goes s reg) ∧
  ∃ t, exec (.ret a) s = .next t ∧ t.frame = (goes s reg).frame ∧
    t = (goes s reg).modPkg (f.core / 512) (fun k => { k with tel := (t.pkg (f.core / 512)).tel }) ∧
    (t.pkg (f.core / 512)).tel.get (coreTel s f.core 0x30) 0 = (s.pkg (f.core / 512)).tel.get (coreTel s f.core 0x30) 0 + 1) ∧
  (∀ (s : State) (ck x this : Nat) (dr : Bool),
  let c := s.ctx ck x
  (∀ p, (nextPc s ck x this (some p) dr).ctx ck x = { c with
      arch := { c.arch with pc := p }, issueAt := (s.core ck).cycle + 3, drain := dr }) ∧
  (let level (m : Nat) : Loop := c.arch.loops.get m {}
   let goesOn (m : Nat) : Prop := (level m).run = true ∧ (level m).last = this ∧ 1 < (level m).remain
   let ended (m : Nat) : Loop := if (level m).run = true ∧ (level m).last = this then { level m with run := false } else level m
   let u := (nextPc s ck x this none dr).ctx ck x
   ((∀ n, n < 6 → ¬ goesOn n) →
    u = { c with arch := { c.arch with pc := this + 1, loops := u.arch.loops } } ∧ ∀ m, m < 6 → u.arch.loops.get m {} = ended m) ∧
   (∀ n, n < 6 → goesOn n → (∀ m, n < m → m < 6 → ¬ goesOn m) →
    let l := level n
    let added (r : Nat) : Word := ((l.strides.filter (fun e => e.2.1 == r)).map (fun e => e.2.2)).sum
    u.arch = { c.arch with
      pc := l.first, loops := u.arch.loops, s := u.arch.s, sReady := u.arch.sReady, sAdd := u.arch.sAdd } ∧
    u.arch.loops.get n {} = { l with remain := l.remain - 1, iter := l.iter + 1 } ∧
    (∀ m, m < 6 → m ≠ n →
      let q := if n < m then ended m else level m
      u.arch.loops.get m {} =
        if q.run = false ∧ q.remain ≠ 0 ∧ l.first ≤ q.first ∧ q.last ≤ this then { q with run := true, remain := q.remain + q.iter, iter := 0 }
        else q) ∧
    ∀ r, 0 < r → r < 31 →
      (c.arch.sWait.find r = none → u.arch.readS r = c.arch.readS r + added r) ∧
      (c.arch.sWait.find r ≠ none → u.arch.readS r = c.arch.readS r ∧ u.arch.sAdd.get r 0 = c.arch.sAdd.get r 0 + added r))))

/-- R111, R113: `loop` whose body lies in the image and which does not itself end a running level starts its level over the next F
bundles, or passes over them when the count is 0; `lstride` writes one stride entry, which s0 clears.
That a running level whose `loop` has a count of 0 stays as it was is the model's choice (log entry 105). -/
def Obligations.loop_and_lstride : Prop :=
  ∀ (s : State) (l : BitVec 3) (a d : BitVec 5) (f : BitVec 11) (k : BitVec 2),
  let pc := s.frame.pc
  let n := min (s.srcCount a).toNat 0xFFFFFFFF
  ((∀ m, m < 6 → (s.frame.old.loops.get m {}).run = false ∨ (s.frame.old.loops.get m {}).last ≠ pc) →
    pc + f.toNat < (imageOf s s.frame.core s.frame.ctx).im.length →
    exec (.loop l a f) s = .next (
      if n = 0 then { s with frame := { s.frame with target := some ((pc + f.toNat + 1) % 2 ^ 32) } }
      else s.arch (fun r => { r with loops := r.loops.set l.toNat { (r.loops.get l.toNat {}) with
        run := true, remain := n, iter := 0, first := pc + 1, last := pc + f.toNat } }))) ∧
  ∃ t, exec (.lstride d a k l) s = .next t ∧
    t = s.arch (fun r => { r with loops := r.loops.set l.toNat { (r.loops.get l.toNat {}) with
      strides := (t.me.arch.loops.get l.toNat {}).strides } }) ∧
    ∀ j, (t.me.arch.loops.get l.toNat {}).strides.find j =
      if j = k.toNat then (if d = 0 then none else some (d.toNat, s.srcS a))
      else (s.me.arch.loops.get l.toNat {}).strides.find j

/-- R112, R116: `loopm` whose checks pass starts its level with the 32-bit count that the context reads at A behind its earlier
loads, after an acquire under its scope; `dispatch` over a well-formed table writes the first capacity that holds the count and the padding, and goes on at its
target, or, when none holds it, the count, 0 and the default target.
That a running level whose `loopm` has a count of 0 stays as it was is the model's choice (log entry 105). -/
def Obligations.loopm_and_dispatch : Prop :=
  ∀ (s : State) (l : BitVec 3) (a b d : BitVec 5) (f : BitVec 11),
  let k := s.frame
  let ea := (s.srcS a).toNat
  let s1 := performAllLoads s k.core k.ctx
  let n := fieldAt (rangeBytes s1 k.core k.ctx [(ea, 8)]) 0 4
  let q := acquire s1 k.core k.ctx b.toNat (s.scopeNow b.toNat)
  (loopmGate a b f s = .go → exec (.loopm l a b f) s = .next (
      if n = 0 then { q with frame := { q.frame with target := some ((k.pc + f.toNat + 1) % 2 ^ 32) } }
      else q.arch (fun r => { r with loops := r.loops.set l.toNat { (r.loops.get l.toNat {}) with
        run := true, remain := n, iter := 0, first := k.pc + 1, last := k.pc + f.toNat } }))) ∧
  (dispatchGate s = .go →
    let bs := dtabBytes s k.core k.ctx (k.lit.toNat / 32)
    let c := (s.srcS a).toNat
    let go (u : State) (p : Nat) : State := { u with frame := { u.frame with target := some (p % 2 ^ 32) } }
    ∃ t, SameMemory s t ∧ OnlyScalars s t ∧
      ((∀ i, i < fieldAt bs 0 4 → fieldAt bs (8 + 4 * i) 4 < c) →
        exec (.dispatch d a b) s = .next (go t (fieldAt bs 4 4)) ∧
        ScalarWritten (s.dstS d (BitVec.ofNat 64 c)) t b 0) ∧
      (∀ i, i < fieldAt bs 0 4 → c ≤ fieldAt bs (8 + 4 * i) 4 → (∀ j, j < i → fieldAt bs (8 + 4 * j) 4 < c) →
        exec (.dispatch d a b) s = .next (go t (fieldAt bs (0x28 + 4 * i) 4)) ∧
        ScalarWritten (s.dstS d (BitVec.ofNat 64 (fieldAt bs (8 + 4 * i) 4))) t b
          (BitVec.ofNat 64 (fieldAt bs (8 + 4 * i) 4 - c))))

/-- R117, R118, R216, R217, R218: with every command completed and every store acknowledged, `yield` leaves the context idle and puts
its record slot at the end of its die's ready list, `yield.park` leaves it idle with no list changed, and `exit` leaves it idle, counts
its item as finished (with an error when a TERR bit is set) and frees its slot, the launch going on while items are left; with a store of
the bundle's region still to be acknowledged the context rests until then; nothing more of the bundle is performed.
That the context rests until its region's stores are acknowledged is inferred (log entry 110). -/
def Obligations.leaving_a_context : Prop := ∀ (s : State) (l : Launch),
  let f := s.frame
  let c := s.me
  let quiet : Prop := enginesDone c = true ∧ unacked s f.core f.ctx 2 = false ∧ ∀ st ∈ (s.core f.core).wbuf, st.ctx ≠ f.ctx
  let rests (t : State) (r : RestInfo) : Prop :=
    t.me.status = .resting ∧ t.me.rest = some r ∧ t.frame.todo = [] ∧ t.frame.gone = true ∧ t.launches = s.launches
  leaveGate s = .go → s.launchOf f.core f.ctx = some l → c.released = [] → c.arch.held = [] →
  (quiet → ∃ t m, exec .yield s = .next t ∧ t.me.status = .idle ∧ t.frame.todo = [] ∧ t.frame.gone = true ∧ t.launch l.id = some m ∧
    m.readyQ.get (f.core / 128) [] = l.readyQ.get (f.core / 128) [] ++ [(c.slot, s.free)]) ∧
  (quiet → ∃ t, exec .yieldPark s = .next t ∧ t.me.status = .idle ∧ t.frame.todo = [] ∧ t.frame.gone = true ∧ t.launches = s.launches) ∧
  (quiet → l.finished + 1 < l.n →
    ∃ t, exec .exit s = .next t ∧ t.me.status = .idle ∧ t.frame.todo = [] ∧ t.frame.gone = true ∧
      t.launch l.id = some { l with finished := l.finished + 1
                                    errors := if f.was.terr = 0 then l.errors else l.errors + 1
                                    used := l.used.filter (· != c.slot) }) ∧
  ((∃ st ∈ (s.core f.core).wbuf, st.core = f.core ∧ st.ctx = f.ctx) →
    (∃ t, exec .yield s = .next t ∧ rests t { kind := 3, pc := f.pc + 1 }) ∧
    (∃ t, exec .yieldPark s = .next t ∧ rests t { kind := 4, pc := f.pc + 1 }) ∧
    ∃ t, exec .exit s = .next t ∧ rests t { kind := 5, cause := if f.was.terr = 0 then 0 else 1 })

/-- R36, R119, Table 4.4: `trap` ends its bundle and takes SW_TRAP: the context is back at its last checkpoint, its withheld stores are
gone, and it rests with the cause and TCAUSE (bundle index, code, cause), or, with nothing left to wait for, its record is disposed of at
once. R120, R257, R261: `waitt` whose timeline has reached the threshold writes P with the absence of the counter's TERR bit, closes the
interval and drops its die's remote lines; below the threshold it blocks and changes no register.
The rest before a trap's record is disposed of is log entry 20; that waitt drops the remote lines whatever its scope is log entry 88. -/
def Obligations.trap_and_timeline_forms : Prop :=
  (∀ (s : State) (i : BitVec 16),
  let f := s.frame
  let r : RestInfo := { kind := 1, cause := 0x0C, tcause := BitVec.ofNat 64 (f.pc % 2 ^ 32 * 2 ^ 32 + i.toNat * 65536 + 0x0C) }
  let u := stopCtx s f.core f.ctx r
  (u.ctx f.core f.ctx).arch = s.me.snap ∧ (u.ctx f.core f.ctx).status = .resting ∧ (u.ctx f.core f.ctx).rest = some r ∧
  (∀ st ∈ (u.core f.core).wbuf, st.ctx ≠ f.ctx) ∧
  ∃ t, exec (.trap i) s = .next t ∧ t.frame = { f with todo := [], gone := true } ∧
    { t with frame := f } = { (if atRest u f.core f.ctx then finishRest u f.core f.ctx else u) with frame := f }) ∧
  (∀ (s : State) (p : BitVec 3) (a : BitVec 5) (n : BitVec 3),
  let f := s.frame
  n.toNat < s.me.win.tcount →
  ((s.srcCount a).toNat ≤ (s.me.eng n.toNat).tl → ∃ t, exec (.waitt p a n) s = .next t ∧
      PredWritten s t p (!f.was.terr.getLsbD n.toNat) ∧ t.me.interval = s.me.interval + 1 ∧
      NoRemoteLines t (f.core / 128) ∧ SameMemory s t) ∧
  ((s.me.eng n.toNat).tl < (s.srcCount a).toNat → ∃ t, exec (.waitt p a n) s = .next t ∧
      t.me.status = .blocked .timeline ∧ t.me.arch = f.old ∧ t.frame.gone = true ∧ SameMemory s t))

/-- R121, R122, R123: `scope.set` of a well-formed descriptor, read behind the context's earlier loads, and `scope.load` of a template write scope entry n, a generation further
when it was set, and withhold the entry's copy for the memory table. -/
def Obligations.scope_forms : Prop := ∀ (s : State) (n a : BitVec 5),
  let f := s.frame
  let old := f.old.scopes.get n.toNat {}
  let gen := if old.set then (old.gen + 1) % 16 else 1
  let ps := blockPieces (s.me.scopeTab + 160 * n.toNat) 160
  let s1 := performAllLoads s f.core f.ctx
  let wrote (u : State) (i : Instr) (bs : List Byte) : Prop :=
    ∃ t e, exec i s = .next t ∧ t.me.arch.scopes.get n.toNat {} = e ∧ e.set = true ∧ e.gen = gen ∧
      e.point = (scopeOfBytes bs).point ∧ e.cores = (scopeOfBytes bs).cores ∧ e.pkgs = (scopeOfBytes bs).pkgs ∧
      t = storeRange (u.arch (fun r => { r with scopes := r.scopes.set n.toNat e })) f.core f.ctx ps (scopeBytes e)
  (scopeSetGate n a s = .go → wrote s1 (.scopeSet n a) (rangeBytes s1 f.core f.ctx (blockPieces (s.srcS a).toNat 160))) ∧
  ∀ bs, scopeTemplate s n.toNat = some bs → scopeLoadGate n s = .go → wrote s (.scopeLoad n) bs

/-- R124, R234: `sluice` behind the launch's count completes at once and takes the launch's count; else it blocks and counts as an
arrival. -/
def Obligations.sluice_form : Prop := ∀ (s : State) (l : Launch),
  let f := s.frame
  s.launchOf f.core f.ctx = some l →
  (s.me.sluiceCount < l.sluiceCount →
    exec .sluice s = .next (s.modMe (fun c => { c with inSluice := false, sluiceCount := l.sluiceCount }))) ∧
  (l.sluiceCount ≤ s.me.sluiceCount → ∃ t, exec .sluice s = .next t ∧
    t.me.status = .blocked .sluice ∧ t.me.inSluice = true ∧ t.me.arch = f.old ∧ t.frame.gone = true ∧ SameMemory s t)

-- the address slot

/-- R126, R128, R129, R245, R246: a load whose gate is open takes the next number for its destination, with its access size, its BYP and its RD
field, leaves every byte of memory as it is, and, from the own scratchpad, has its value, as it stood before the bundle, sign- or zero-extended,
on the way to the destination; an ordered load is an acquire under its scope as its value is written. One that meets a store of its own context
performs at once, behind the older loads of its units, `s0`. That the own scratchpad and such a location are read at issue is log entry 14. -/
def Obligations.load_forms : Prop :=
  ∀ (s : State) (d b x : BitVec 5) (r : BitVec 2) (y : BitVec 1) (sc : BitVec 5) (o : BitVec 3) (g : Target),
  let f := s.frame
  s.targetOf (s.eaX b x) .read = some g →
  let form (i : Instr) (n : Nat) (signed : Bool) : Prop :=
    let s0 := if ownSpad f.core g.place = true ∨ ownPending s f.core f.ctx g n = false then s
      else performLoads s f.core f.ctx s.me.loads g.place n
    loadGate n d b x y sc o s = .go →
    ∃ t l, exec i s = .next t ∧ Awaits s t d ∧ l ∈ t.me.loads ∧ l.id = s.me.nextLoad ∧ l.dst = d.toNat ∧ l.target = g ∧
      l.size = n ∧ l.signed = signed ∧ (l.commit = true ↔ o ≠ 0) ∧ (l.byp = true ↔ y = 1) ∧ l.rd = r.toNat ∧ t.me.arch.s = s.me.arch.s ∧ t.me.arch.v = s.me.arch.v ∧
      t.me.arch.p = s.me.arch.p ∧ (g.race = 0 → SameMemory s0 t) ∧
      (∀ a, g.place = .spad f.core a → let v := Mem.nat s.frame.spad a n
        l.data = some (if signed then (BitVec.ofNat (8 * n) v).signExtend 64 else BitVec.ofNat 64 v)) ∧
      l.acq = (if o = 0 then none else some (sc.toNat, s.scopeNow sc.toNat)) ∧
      (ownSpad f.core g.place = true ∨ ownPending s f.core f.ctx g n = false →
        t = s.modMe (fun c => { c with nextLoad := t.me.nextLoad, loads := t.me.loads, arch := { c.arch with
          ldq := t.me.arch.ldq, sWait := t.me.arch.sWait, sReady := t.me.arch.sReady } }))
  form (.ldb d b x r y sc o) 1 true ∧ form (.ldbn d b x r y sc o) 1 false ∧ form (.ldh d b x r y sc o) 2 true ∧
  form (.ldhn d b x r y sc o) 2 false ∧ form (.ldw d b x r y sc o) 4 true ∧ form (.ldwn d b x r y sc o) 4 false ∧
  form (.ldd d b x r y sc o) 8 false

/-- R31, R130, R245: a relaxed store whose gate is open writes the low bytes of D into the own scratchpad, or withholds them for any other
place, after the context's own overlapping loads; it changes no register and no other byte. R128, R130: a release store whose gate is open
closes the interval; elsewhere than in the own scratchpad, where it is written, it takes its entry of the withholding buffer, made in the
interval that it closes, and the context waits for its earlier stores to be acknowledged at its scope's point; no byte of memory changes with
it. Which entries a store may join, and that it keeps the first one's RD, is log entry 123. -/
def Obligations.store_forms : Prop :=
  (∀ (s : State) (d b x : BitVec 5) (r : BitVec 2) (sc : BitVec 5) (g : Target),
  let f := s.frame
  s.memWf → s.targetOf (s.eaX b x) .write = some g →
  let form (i : Instr) (n : Nat) : Prop :=
    let s0 := performLoads s f.core f.ctx s.me.loads g.place n
    storeGate n b x sc 0 s = .go →
    ∃ t, exec i s = .next t ∧ t.me.arch = s.me.arch ∧
      (∀ o, g.place = .spad f.core o → SpadWritten s0 t f.core o n (s.srcS d).toNat) ∧
      (ownSpad f.core g.place = false → SameMemory s0 t ∧
        t = s0.modCore f.core (fun c => { c with
          wbuf := withhold { mkStore (s0.ctx f.core f.ctx) f.core f.ctx g (leBytes n (s.srcS d).toNat) with rd := r.toNat } c.wbuf }))
  form (.stb d b x r sc 0) 1 ∧ form (.sth d b x r sc 0) 2 ∧ form (.stw d b x r sc 0) 4 ∧ form (.std d b x r sc 0) 8) ∧
  (∀ (s : State) (d b x : BitVec 5) (r : BitVec 2) (sc : BitVec 5) (g : Target),
  let f := s.frame
  s.memWf → s.targetOf (s.eaX b x) .write = some g →
  let form (i : Instr) (n : Nat) : Prop :=
    let s0 := performLoads s f.core f.ctx s.me.loads g.place n
    storeGate n b x sc 2 s = .go →
    ∃ t, exec i s = .next t ∧ t.me.arch = s.me.arch ∧ t.me.interval = s.me.interval + 1 ∧
      (∀ o, g.place = .spad f.core o → SpadWritten s0 t f.core o n (s.srcS d).toNat) ∧
      (ownSpad f.core g.place = false → SameMemory s0 t ∧ t.me.relWait = some (s.scopeNow sc.toNat).point ∧
        t.me.lastSc = sc.toNat ∧ t.me.lastGen = (s.scopeNow sc.toNat).gen ∧
        (t.core f.core).wbuf = withhold { mkStore (s0.ctx f.core f.ctx) f.core f.ctx g (leBytes n (s.srcS d).toNat) with
          rel := true, rd := r.toNat } (s0.core f.core).wbuf)
  form (.stb d b x r sc 2) 1 ∧ form (.sth d b x r sc 2) 2 ∧ form (.stw d b x r sc 2) 4 ∧ form (.std d b x r sc 2) 8)

/-- R128, R135, R136, R139: the full/empty forms on a scratchpad word with its needed state: `ldfull` and `ldtake` return the word, `ldtake`
leaving it empty; `stfill` and `stforce` write it and leave it full; `fetag` returns the tag and `feset` writes it. An acquire comes with the
returned value, a release once the stores that it covers are acknowledged. `s0` is what the unit holds as the request arrives: behind the
context's earlier loads, its own stores to the word and the requests that wait there and can be served (log entry 36). -/
def Obligations.full_empty_forms : Prop := ∀ (s : State) (d b x sc : BitVec 5) (o : BitVec 3) (k at_ : Nat),
  let f := s.frame
  let w := at_ / 4
  let s0 := atUnit f.core k (4 * w) 4 (performAllLoads s f.core f.ctx)
  let word : Word := BitVec.ofNat 64 (Mem.nat (s0.core k).spad (4 * w) 4)
  let full := (s0.core k).full
  let v := (s.srcS d).toNat % 2 ^ 32
  let open_ (blocking returning : Bool) (op : Nat → UnitOp) (sc : BitVec 5) (o : BitVec 3) : Prop :=
    feFormGate blocking returning op d b x sc o s = .go
  let acq : Prop := o = 0 ∨ o = 1
  let rel : Prop := o = 0 ∨ o = 2
  s.memWf → spadOf (s.targetOf (s.eaX b x) .both) = some (k, at_) → s0.me.served = none →
  (w ∈ full → acq → open_ true true .ldfull sc o → ∃ t, exec (.ldfull d b x sc o) s = .next t ∧ Returns s t d word sc o ∧
    Releases s t sc o ∧ (t.core k).full = full ∧ SameMemory s0 t) ∧
  (w ∈ full → acq → open_ true true .ldtake sc o → ∃ t, exec (.ldtake d b x sc o) s = .next t ∧ Returns s t d word sc o ∧
    Releases s t sc o ∧ (∀ j, j ∈ (t.core k).full ↔ j ∈ full ∧ j ≠ w) ∧ SameMemory s0 t) ∧
  (w ∉ full → rel → open_ true false (fun w => .stfill w (s.srcW d)) sc o → ∃ t, exec (.stfill d b x sc o) s = .next t ∧
    SpadWritten s0 t k (4 * w) 4 v ∧ (∀ j, j ∈ (t.core k).full ↔ j ∈ full ∨ j = w) ∧ Releases s t sc o ∧ t.me.arch = s.me.arch) ∧
  (rel → open_ false false (fun w => .stforce w (s.srcW d)) sc o → ∃ t, exec (.stforce d b x sc o) s = .next t ∧
    SpadWritten s0 t k (4 * w) 4 v ∧ (∀ j, j ∈ (t.core k).full ↔ j ∈ full ∨ j = w) ∧ Releases s t sc o ∧ t.me.arch = s.me.arch) ∧
  (open_ false true .fetag 0 0 → ∃ t, exec (.fetag d b x) s = .next t ∧ Returns s t d (if w ∈ full then 1 else 0) 0 0 ∧
    (t.core k).full = full ∧ SameMemory s0 t) ∧
  (open_ false false (fun w => .feset w ((s.srcS d).getLsbD 0)) 0 0 → ∃ t, exec (.feset d b x) s = .next t ∧
    (∀ j, j ∈ (t.core k).full ↔ if j = w then (s.srcS d).getLsbD 0 = true else j ∈ full) ∧ t.me.arch = s.me.arch ∧ SameMemory s0 t)

/-- R137 to R139, Table 5.4: atomics on a location of a scratchpad return its old value and leave the new one; reductions leave the new one
and return nothing; every other byte is as it was; with an ordering they are the acquires and releases that it names. The old value is that
behind the context's earlier loads, its own stores to the location and the requests that wait at the unit and can be served (log entry 36). -/
def Obligations.atomics_in_a_scratchpad : Prop :=
  ∀ (s : State) (d b x : BitVec 5) (z : BitVec 3) (sc : BitVec 5) (o : BitVec 3) (k at_ : Nat),
  let f := s.frame
  let s1 (n : Nat) : State := settlePlace (performAllLoads s f.core f.ctx) f.core (.unit k at_) (.spad k at_) n
  s.memWf → spadOf (s.targetOf (s.ea b) .both) = some (k, at_) → s.me.served = none → s.me.redAt = none →
  AtomicForms s d b x z sc o (fun n => Mem.nat ((s1 n).core k).spad at_ n) (fun t n v => SpadWritten (s1 n) t k at_ n v)

/-- R137 to R139, R246, R255, R256, Table 5.4: at their home in HBM, atomics and reductions of every operation see every earlier store of their
core, leave the new value and change no other byte of memory; an atomic returns the old one; with an ordering they are the acquires and releases
that it names. The 16-byte compare-and-swap replaces the location only when it holds the compare value, and returns the old value in two halves,
an acquire with the second. -/
def Obligations.atomics_at_the_home : Prop :=
  ∀ (s : State) (d b x : BitVec 5) (z : BitVec 3) (sc : BitVec 5) (o : BitVec 3) (g : Target) (fa : Nat),
  let f := s.frame
  let s0 := performAllLoads s f.core f.ctx
  let s1 (n : Nat) : State := settleStores s0 f.core (.hbm fa) n
  let old := Mem.nat (s1 16).mem fa 16
  s.memWf → s.targetOf (s.ea b) .both = some g → g.place = .hbm fa → s.me.served = none → s.me.redAt = none →
  atomPlace s0 f.core (s.scopeNow sc.toNat).point g.place = .home fa →
  AtomicForms s d b x z sc o (fun n => Mem.nat (s1 n).mem fa n) (fun t n v => HbmWritten (s1 n) t fa n v) ∧
  (z = 2 → o.toNat ≤ 3 → atomGate (s.ea b) 9 16 sc o true s = .go → ldqGate d 2 s = .go → ∃ t, exec (.atomCas d b x z sc o) s = .next t ∧
    (if old = (s.srcS x).toNat + (s.srcS (x + 1)).toNat * 2 ^ 64 then
      HbmWritten (s1 16) t fa 16 ((s.srcS (x + 2)).toNat + (s.srcS (x + 3)).toNat * 2 ^ 64)
    else SameMemory (s1 16) t) ∧ Releases s t sc o ∧
    t.me.nextLoad = s.me.nextLoad + 2 ∧
    (∃ l ∈ t.me.loads, l.id = s.me.nextLoad ∧ l.dst = d.toNat ∧ l.data = some (BitVec.ofNat 64 (old % 2 ^ 64)) ∧ l.acq = none) ∧
    ∃ l ∈ t.me.loads, l.id = s.me.nextLoad + 1 ∧ l.dst = (if d = 0 then 0 else (d + 1).toNat) ∧
      l.data = some (BitVec.ofNat 64 (old / 2 ^ 64)) ∧ l.acq = acquireOf s sc o)

/-- R133, R134, R151, R261: a fence whose waits are over closes the context's interval, and one that acquires drops the unconsumed entries
of the latches and, from point 3 on, the die's remote lines; `qmark` owes a checkpoint; `l1inv` empties the core's L1, and of a fused quad those of
its cores, for 16 cycles. No byte of memory changes. R152: `pref` always completes: it writes no register and no byte of memory, and with RD 3 it does nothing. -/
def Obligations.ordering_forms : Prop :=
  (∀ (s : State) (sc : BitVec 5),
  let f := s.frame
  let e := s.scopeNow sc.toNat
  let closed (t : State) : Prop :=
    t.me.interval = s.me.interval + 1 ∧ t.me.lastSc = sc.toNat ∧ t.me.lastGen = e.gen ∧ t.me.arch = s.me.arch ∧ SameMemory s t
  let acquired (t : State) : Prop :=
    (∀ k, ∀ y ∈ t.me.latchBuf.get k [], y.num < (s.me.arch.latches.get k {}).pos) ∧
    (3 ≤ e.point → NoRemoteLines t (f.core / 128))
  (fenceGate sc false s = .go → ∃ t, exec (.fenceAcq sc) s = .next t ∧ closed t ∧ acquired t) ∧
  (fenceGate sc true s = .go → ∃ t, exec (.fenceRel sc) s = .next t ∧ closed t ∧ t.me.latchBuf = s.me.latchBuf) ∧
  (fenceGate sc true s = .go → ∃ t, exec (.fenceAr sc) s = .next t ∧ closed t ∧ acquired t) ∧
  exec .qmark s = .next (s.modMe (fun c => { c with ckOwed := max c.ckOwed 2 })) ∧
  ∃ t, exec .l1inv s = .next t ∧ t.me.arch = s.me.arch ∧ SameMemory s t ∧
    ∀ k, k = f.core ∨ (s.core f.core).fused = true ∧ k / 4 = f.core / 4 →
      (t.core k).l1until = (s.core f.core).cycle + 16 ∧ (t.core k).l1 = []) ∧
  (∀ (s : State) (b x : BitVec 5) (r : BitVec 2) (y : BitVec 1),
  exec (.pref b x 3 y) s = .next s ∧
  ∃ t, exec (.pref b x r y) s = .next t ∧ t.me = s.me ∧ SameMemory s t ∧
    t = { s with cores := t.cores, dies := t.dies } ∧ ∀ k, (t.core k) = { s.core k with l1 := (t.core k).l1, tlb := (t.core k).tlb })

/-- R128, R141, R142, R261: at a scratchpad dispenser, `tkt.take` returns NEXT and raises it, an acquire with its value when ordered; `tkt.serve`
raises SERVING, closes the interval, ordered only once the stores that it covers are acknowledged, and answers exactly the recorded waiters on
that dispenser that it satisfies and whose core its scope names; a `tkt.wait` whose ticket SERVING has reached passes and closes the interval,
an acquire when ordered. `s0` and `s1` are what the unit holds as the request arrives (log entry 36). -/
def Obligations.ticket_forms : Prop := ∀ (s : State) (d b x sc : BitVec 5) (o : BitVec 3) (k at_ : Nat),
  let f := s.frame
  let ea := s.ea b
  let e := s.scopeNow sc.toNat
  let s0 := settlePlace (performAllLoads s f.core f.ctx) f.core (.unit k at_) (.spad k at_) 8
  let s1 := settlePlace s f.core (.unit k at_) (.spad k at_) 8
  let old := Mem.nat (s0.core k).spad at_ 8
  let serving := (old / 2 ^ 32 + 1) % 2 ^ 32
  let reached (w : Waiter) : Prop := w.place = .spad k at_ ∧ w.kind = 0 ∧ (serving + 2 ^ 32 - w.ticket.toNat) % 2 ^ 32 < 2 ^ 31 ∧
    isMember e w.core w.ctx = true
  s.memWf → spadOf (s.targetOf ea .both) = some (k, at_) →
  (o = 0 ∨ o = 1 → tktGate ea sc o s = .go → ldqGate d 1 s = .go → ∃ t, exec (.tktTake d b sc o) s = .next t ∧
    SpadWritten s0 t k at_ 8 (old / 2 ^ 32 * 2 ^ 32 + (old % 2 ^ 32 + 1) % 2 ^ 32) ∧
    Returns s t d (BitVec.ofNat 64 (old % 2 ^ 32)) sc o ∧ t.me.interval = s.me.interval) ∧
  (o = 0 ∨ o = 2 → tktGate ea sc o s = .go → ∃ t, exec (.tktServe b sc o) s = .next t ∧
    SpadWritten s0 t k at_ 8 (serving * 2 ^ 32 + old % 2 ^ 32) ∧
    t.me.interval = s.me.interval + 1 ∧ t.me.lastSc = sc.toNat ∧ t.me.lastGen = e.gen ∧ t.me.arch = s.me.arch ∧
    (o = 2 → unacked s f.core f.ctx e.point = false) ∧
    (∀ w, w ∈ t.waiters ↔ w ∈ s.waiters ∧ ¬ reached w) ∧
    (∀ w ∈ s.waiters, reached w → (t.ctx w.core w.ctx).granted = true ∧ (t.ctx w.core w.ctx).status = .ready) ∧
    ∀ ck y, (∀ w ∈ s.waiters, reached w → (w.core, w.ctx) ≠ (ck, y)) →
      (t.ctx ck y).granted = (s0.ctx ck y).granted ∧ (t.ctx ck y).status = (s0.ctx ck y).status) ∧
  (o = 0 ∨ o = 1 → tktWaitGate b x sc o s = .go → ∃ t, exec (.tktWait b x sc o) s = .next t ∧ t.me.granted = false ∧
    t.me.arch = s.me.arch ∧ t.me.interval = s.me.interval + 1 ∧ t.me.lastSc = sc.toNat ∧ t.me.lastGen = e.gen ∧
    (o = 1 → Acquires s t sc) ∧ SameMemory s1 t)

/-- R128, R143, R226, R261: `bar.arrive` on a level above 0 appends an arrival of the context, in the barrier's phase or the next one; `bar.wait` whose
phase is over removes the arrivals it waited for; on level 0 neither waits and nothing arrives. An ordered arrival is a release, once the stores
that it covers are acknowledged, and an ordered wait an acquire as it passes. -/
def Obligations.barrier_forms : Prop := ∀ (s : State) (l : BitVec 3) (i : BitVec 2) (sc : BitVec 5) (o : BitVec 3) (L : Launch),
  let f := s.frame
  let u := unitOf l.toNat f.core
  let b := L.barrier l.toNat u i.toNat
  s.launchOf f.core f.ctx = some L →
  (barGate 0 i 0 0 s = .go → exec (.barArrive 0 i 0 0) s = .next s) ∧
  (o = 0 ∨ o = 2 → barGate 0 i sc o s = .go → ∃ t, exec (.barArrive 0 i sc o) s = .next t ∧ Releases s t sc o ∧
    t.me.arrivals = s.me.arrivals ∧ t.me.arch = s.me.arch ∧ t.launches = s.launches ∧ SameMemory s t) ∧
  (l ≠ 0 → o = 0 ∨ o = 2 → barGate l i sc o s = .go → ∃ t a, exec (.barArrive l i sc o) s = .next t ∧
    t.me.arrivals = s.me.arrivals ++ [a] ∧ a.level = l.toNat ∧ a.id = i.toNat ∧ a.unit = u ∧ (a.phase = b.phase ∨ a.phase = b.phase + 1) ∧
    Releases s t sc o ∧ t.me.arch = s.me.arch ∧ SameMemory s t) ∧
  (o = 0 ∨ o = 1 → barWaitGate l i sc o s = .go → ∃ t, exec (.barWait l i sc o) s = .next t ∧
    (∀ a, a ∈ t.me.arrivals ↔ a ∈ s.me.arrivals ∧ ¬ (a.level = l.toNat ∧ a.id = i.toNat)) ∧
    (o = 0 → t.me.interval = s.me.interval ∧ t.me.latchBuf = s.me.latchBuf) ∧ (o = 1 → Acquires s t sc) ∧
    t.me.arch = s.me.arch ∧ SameMemory s t)

/-- R144 to R147: `sbind` with a well-formed descriptor binds the latch or queue at position 0 in every selected group; `sstop` unbinds
it, `srewind` goes back to position 0; what a latch held is dropped; other groups, other bindings and everything else are as they were. A
recorded fault of a named queue is raised instead by `sstop` and `srewind`, and forgotten.
That a recorded queue fault is forgotten when `sstop` or `srewind` raises it is the model's choice (log entry 45); a trap's rest is log
entry 20. -/
def Obligations.binding_forms : Prop := ∀ (s : State) (k : BitVec 1) (i : BitVec 3) (b x : BitVec 5) (t : BitVec 1) (bs : List Byte),
  let f := s.frame
  let gs := s.groupMask x
  let tbl (u : State) : Tbl Binding := if k = 0 then u.me.arch.latches else u.me.arch.queues
  let named (j : Nat) : Prop := ∃ g ∈ gs, j = 8 * g + i.toNat
  let kept (u : State) : Prop :=
    (∀ j, ¬ named j → (tbl u).find j = (tbl s).find j ∧ u.me.latchBuf.find j = s.me.latchBuf.find j ∧
      u.me.latchPops.find j = s.me.latchPops.find j) ∧
    (k = 0 → u.me.arch.queues = s.me.arch.queues) ∧
    (k ≠ 0 → u.me.arch.latches = s.me.arch.latches ∧ u.me.latchBuf = s.me.latchBuf ∧ u.me.latchPops = s.me.latchPops) ∧
    SameMemory s u ∧ u = s.modMe (fun c => { c with
      latchBuf := u.me.latchBuf
      latchPops := u.me.latchPops
      arch := { c.arch with latches := u.me.arch.latches, queues := u.me.arch.queues } })
  let dropped (u : State) (j : Nat) : Prop := k = 0 → u.me.latchBuf.find j = none
  let cause := namedFault s k i x
  let clear := clearFaults (gs.map (fun g => 8 * g + i.toNat)) s
  (sbindGate k i b t s = .go → descBytes s (imageOf s f.core f.ctx).streamsT t (s.ea b) 64 = some bs →
    ∃ u, exec (.sbind k i b x t) s = .next u ∧ kept u ∧ ∀ j, named j → dropped u j ∧ ∃ n, (tbl u).find j = some n ∧
      n.desc = streamOfBytes bs ∧ n.pos = 0 ∧ (n.template = true ↔ t = 1) ∧ n.src = (if t = 1 then f.litVal.toNat else s.ea b)) ∧
  (stopGate k i x s = .go → ∃ u, exec (.sstop k i x) s = .next u ∧ kept u ∧ ∀ j, named j → dropped u j ∧ (tbl u).find j = none) ∧
  (stopGate k i x s = .go → ∃ u, exec (.srewind k i x) s = .next u ∧ kept u ∧
    ∀ j, named j → ((tbl s).find j ≠ none → dropped u j) ∧ (tbl u).find j = ((tbl s).find j).map (fun n => { n with pos := 0 })) ∧
  (stopGate k i x s = .trap cause → cause ≠ 0 → (∃ u, exec (.sstop k i x) s = .next u ∧ Traps clear cause 0 u) ∧
    ∃ u, exec (.srewind k i x) s = .next u ∧ Traps clear cause 0 u)

/-- R148 to R150: `cbinit` with a well-formed descriptor sets a handle with both pointers 0 in every selected group; `cbadv` whose slots are
there moves its producer or its consumer pointer by the literal; other handles are as they were. -/
def Obligations.handle_forms : Prop := ∀ (s : State) (k : BitVec 3) (b x : BitVec 5) (t sd : BitVec 1) (bs : List Byte),
  let f := s.frame
  let gs := s.groupMask x
  let n := f.litVal.toNat
  let named (j : Nat) : Prop := ∃ g ∈ gs, j = 8 * g + k.toNat
  let kept (u : State) : Prop :=
    (∀ j, ¬ named j → u.me.arch.handles.find j = s.me.arch.handles.find j) ∧ SameMemory s u
  (cbinitGate k b t s = .go → descBytes s (imageOf s f.core f.ctx).handlesT t (s.ea b) 32 = some bs →
    ∃ u, exec (.cbinit k b x t) s = .next u ∧ kept u ∧
      ∀ j, named j → u.me.arch.handles.find j = some { desc := handleOfBytes bs }) ∧
  (cbadvGate sd k x s = .go → ∃ u, exec (.cbadv sd k x) s = .next u ∧ kept u ∧ ∀ j, named j →
    let h := s.me.arch.handles.get j {}
    u.me.arch.handles.get j {} =
      if sd = 1 then { h with produced := h.produced + n } else { h with consumed := h.consumed + n })

-- group-table entries

/-- R82: the all-zero entry does nothing. R153, R154, R157 to R159, Table 6.2: an integer entry whose operands are there starts its
lane-wise result for D.
R82 of chapter 3: an all-zero entry is the no-operation. -/
def Obligations.integer_entries : Prop := ∀ (s : State) (e : Entry),
  exec .entryNop s = .next s ∧
  (entGate e false [] s = .go →
    let a := laneOf (s.entSrc e.a)
    let b := laneOf (s.entSrc e.b)
    let c := laneOf (s.entSrc e.c)
    let u := e.fmt == 1
    let f (i : Instr) (r : Nat → Lane) : Prop := LaneForm i s e (s.lanes e) r
    let le (l : Nat) : Bool := if u then decide ((a l).toNat ≤ (b l).toNat) else decide ((a l).toInt ≤ (b l).toInt)
    f (.vadd e) (fun l => a l + b l) ∧ f (.vsub e) (fun l => a l - b l) ∧ f (.vmul e) (fun l => a l * b l) ∧
    f (.vmulh e) (fun l => if u then BitVec.ofNat 32 ((a l).toNat * (b l).toNat / 2 ^ 32)
      else BitVec.ofInt 32 ((a l).toInt * (b l).toInt / 2 ^ 32)) ∧
    f (.vmad e) (fun l => a l * b l + c l) ∧ f (.vand e) (fun l => a l &&& b l) ∧ f (.vor e) (fun l => a l ||| b l) ∧
    f (.vxor e) (fun l => a l ^^^ b l) ∧ f (.vshl e) (fun l => a l <<< ((b l).toNat % 32)) ∧
    f (.vshrl e) (fun l => a l >>> ((b l).toNat % 32)) ∧
    f (.vshra e) (fun l => BitVec.ofInt 32 ((a l).toInt / 2 ^ ((b l).toNat % 32))) ∧
    f (.vmin e) (fun l => if le l then a l else b l) ∧ f (.vmax e) (fun l => if le l then b l else a l) ∧
    f (.vabs e) (fun l => BitVec.ofNat 32 (a l).toInt.natAbs) ∧ f (.vneg e) (fun l => 0 - a l) ∧
    f (.vpopc e) (fun l => BitVec.ofNat 32 (((List.range 32).filter (fun k => (a l).getLsbD k)).length)) ∧
    f (.vclz e) (fun l => BitVec.ofNat 32 (((List.range 32).find? (fun k => (a l).getLsbD (31 - k))).getD 32)) ∧
    f (.vdp4 e) (fun l =>
      let byte (signed : Bool) (x : Lane) (j : Nat) : Int :=
        if signed then (x.extractLsb' (8 * j) 8).toInt else (x.extractLsb' (8 * j) 8).toNat
      let sa := e.fmt == 0 || e.fmt == 2
      let sb := e.fmt == 0 || e.fmt == 3
      BitVec.ofInt 32 ((c l).toInt + ((List.range 4).map (fun j => byte sa (a l) j * byte sb (b l) j)).sum)) ∧
    f (.vcmpCc e) (fun l => if condHolds (e.modBits 0 4) (a l) (b l) then 0xFFFFFFFF else 0) ∧
    f (.vsel e) (fun l => if c l = 0 then b l else a l))

/-- R160, R161, R167, Table 6.3: a floating-point or L6 entry whose operands are there starts its lane-wise result for D: the binary32
operation of the rule, with the entry's rounding mode where it has one. -/
def Obligations.float_entries : Prop := ∀ (s : State) (e : Entry), entGate e false [] s = .go →
  let a (l : Nat) : Nat := (laneOf (s.entSrc e.a) l).toNat
  let b (l : Nat) : Nat := (laneOf (s.entSrc e.b) l).toNat
  let c (l : Nat) : Nat := (laneOf (s.entSrc e.c) l).toNat
  let rm := e.mod.toNat % 8
  let f (i : Instr) (r : Nat → Nat) : Prop := LaneForm i s e (s.lanes e) (fun l => BitVec.ofNat 32 (r l))
  let term (l j : Nat) : Int := l6Term (a l / 2 ^ (6 * j) % 64) (b l / 2 ^ (6 * j) % 64)
  f (.vfadd e) (fun l => addF rm (a l) (b l)) ∧ f (.vfsub e) (fun l => subF rm (a l) (b l)) ∧
  f (.vfmul e) (fun l => mulF rm (a l) (b l)) ∧ f (.vfma e) (fun l => fmaF rm (a l) (b l) (c l)) ∧
  f (.vfmin e) (fun l => minmaxF false (a l) (b l)) ∧ f (.vfmax e) (fun l => minmaxF true (a l) (b l)) ∧
  f (.vfabs e) (fun l => if val32 (a l) = .nan then 0x7FC00000 else a l % 2 ^ 31) ∧
  f (.vfcmpCc e) (fun l => if compareF (e.modBits 0 4) (a l) (b l) then 0xFFFFFFFF else 0) ∧
  f (.vfrcp e) (fun l => rcpF (a l)) ∧ f (.vfrsq e) (fun l => rsqF (a l)) ∧
  f (.vfexp2 e) (fun l => exp2F (a l)) ∧ f (.vflog2 e) (fun l => log2F (a l)) ∧
  f (.vlmul e) (fun l => roundVal fp32 0 0 0 (Val.ofInt (term l (e.mod.toNat % 4)) (-23))) ∧
  f (.vlsum e) (fun l => sumRound rm [val32 (c l), Val.ofInt (term l 0 + term l 1 + term l 2 + term l 3) (-23)])

/-- R156, R162 to R166: conversions. `vcvt`, `vdequant`, `vunpack` and `vpack` (two halves, or two bytes of the half
that H names, the rest kept) work lane by lane; `vquant` leaves the 32 elements of a
block, four to a lane, in lanes 0 to 7 and their scale in lane 8, whatever the mask; R68, R69: its result is one that sets QSAT as it lands
when the block holds an infinity and no NaN. -/
def Obligations.conversion_entries : Prop := ∀ (s : State) (e : Entry),
  let a := laneOf (s.entSrc e.a)
  let fmt := selFormat e.fmt
  let bits := formatBits fmt
  let elem (x : Lane) (j : Nat) : Nat := x.toNat / 2 ^ (bits * j) % 2 ^ bits
  (entGate e (e.mod.toNat % 8 == 4) [] s = .go →
    LaneForm (.vcvt e) s e (s.lanes e) (fun l => BitVec.ofNat 32
      (convert (e.modBits 17 5) (e.modBits 12 5) e.rm (s.randomWord l 0) (a l).toNat)) ∧
    (let q := quantise fmt e.rm (fun l => s.randomWord l 0) ((List.range 32).map (fun l => val32 (a l).toNat))
     LaneForm (.vquant e) s e (BitVec.allOnes 32) (fun l =>
      if l < 8 then BitVec.ofNat 32 (packLane bits ((q.2.1.drop (4 * l)).take 4)) else if l = 8 then BitVec.ofNat 32 q.1 else 0)) ∧
    (let value (l : Nat) : Val := val32 (a l).toNat
     let saturates : Prop := (∀ l, l < 32 → value l ≠ .nan) ∧ ∃ l, l < 32 ∧ (value l = .inf false ∨ value l = .inf true)
     ∃ t ps, exec (.vquant e) s = .next t ∧ t.me.inflight = s.me.inflight ++ ps ∧ t.me.fstat = s.me.fstat ∧
      (∀ p ∈ ps, p.due = s.dueCycle ∧ (p.qsat = true ↔ saturates)) ∧ (saturates → ps ≠ [])) ∧
    (e.fmt.toNat ≤ 1 → LaneForm (.vpack e) s e (s.lanes e) (fun l => BitVec.ofNat 32
      (convert 0 fmt e.rm (s.randomWord l 0) (a l).toNat % 2 ^ 16 +
       convert 0 fmt e.rm (s.randomWord l 16) (laneOf (s.entSrc e.b) l).toNat % 2 ^ 16 * 2 ^ 16))) ∧
    (1 < e.fmt.toNat → LaneForm (.vpack e) s e (s.lanes e) (fun l =>
      let h := e.modBits 3 1
      let src := if 4 ≤ e.fmt.toNat then 0xA else 0
      let v := convert src fmt e.rm (s.randomWord l (16 * h)) (a l).toNat % 256 +
        convert src fmt e.rm (s.randomWord l (16 * h + 8)) (laneOf (s.entSrc e.b) l).toNat % 256 * 256
      let old := (laneOf (s.entSrc e.c) l).toNat
      BitVec.ofNat 32 (if h = 0 then old / 65536 * 65536 + v else old % 65536 + v * 65536)))) ∧
  (entGate e false [] s = .go →
    LaneForm (.vdequant e) s e (s.lanes e) (fun l => BitVec.ofNat 32
      (dequantElem fmt e.rm ((a 8).toNat % 256) (elem (a (l / 4)) (l % 4)))) ∧
    LaneForm (.vunpack e) s e (s.lanes e) (fun l =>
      if fmt = 8 then BitVec.ofInt 32 (BitVec.ofNat 8 (elem (a l) (e.modBits 0 2))).toInt
      else if fmt = 9 then BitVec.ofNat 32 (elem (a l) (e.modBits 0 2))
      else BitVec.ofNat 32 (convert fmt 0 0 0 (elem (a l) (e.modBits 0 2)))))

/-- R168, R169: lane movement, reductions and scans. An exclusive scan's lane receives the accumulation over the active lanes below it, an
inclusive scan's its own too, in ascending order. R170, R178: mask entries start a mask, group-register entries a group address register,
all at the class's distance; a mask result for m0 is dropped. -/
def Obligations.movement_and_mask_entries : Prop :=
  (∀ (s : State) (e : Entry), entGate e false [] s = .go →
  let a := laneOf (s.entSrc e.a)
  let m := s.lanes e
  let active := (List.range 32).filter (fun l => m.getLsbD l)
  let red (ls : List Nat) : Lane := reduceLanes (e.modBits 0 4) (e.modBits 5 3) (s.entSrc e.a) ls
  LaneForm (.vperm e) s e m (fun l => a ((laneOf (s.entSrc e.b) l).toNat % 32)) ∧
  LaneForm (.vbcast e) s e m (fun _ => a (if e.modBits 5 1 = 1 then s.frame.arg.toNat % 32 else e.modBits 0 5)) ∧
  LaneForm (.viota e) s e (BitVec.allOnes 32)
    (fun l => BitVec.ofNat 32 (((List.range l).filter (fun k => m.getLsbD k)).length)) ∧
  LaneForm (.vreduce e) s e (BitVec.allOnes 32) (fun _ => red active) ∧
  LaneForm (.vscan e) s e m
    (fun l => red (active.filter (fun k => if e.modBits 4 1 = 1 then decide (k < l) else decide (k ≤ l)))) ∧
  (let g := if e.d = 56 then (s.frame.grp + 7) % 8 else (s.frame.grp + 1) % 8
   ∃ t p, exec (.vshn e) s = .next t ∧ OnlyResults s t ∧ t.me.arch = s.me.arch ∧ t.me.inflight = s.me.inflight ++ [p] ∧
    p.group = g ∧ p.dest = .vreg (e.modBits 0 6) ∧ p.lanes = m ∧ p.data = s.entSrc e.a ∧ p.due = s.dueCycle)) ∧
  (∀ (s : State) (e : Entry),
  let g := s.frame.grp
  let starts (i : Instr) (dest : Dest) (w : BitVec 32) : Prop :=
    ∃ t p, exec i s = .next t ∧ OnlyResults s t ∧ t.me.arch = s.me.arch ∧ t.me.inflight = s.me.inflight ++ [p] ∧
      p.group = g ∧ p.dest = dest ∧ p.data.setWidth 32 = w ∧ p.due = s.dueCycle
  let mask (k : Nat) : LaneMask := s.frame.old.mask g k
  let greg (k : Nat) : BitVec 32 := s.frame.old.gregs.get (8 * g + k) 0
  let k := e.mod.toNat / 2 ^ 17 % 8
  (e.d.toNat ≠ 0 → starts (.mand e) (.mask e.d.toNat) (mask e.a.toNat &&& mask e.b.toNat) ∧
    starts (.mor e) (.mask e.d.toNat) (mask e.a.toNat ||| mask e.b.toNat) ∧
    starts (.mnot e) (.mask e.d.toNat) (~~~ mask e.a.toNat)) ∧
  (e.d.toNat = 0 → exec (.mand e) s = .next s ∧ exec (.mor e) s = .next s ∧ exec (.mnot e) s = .next s) ∧
  (entGate e false [] s = .go →
    (e.d.toNat ≠ 0 → ∃ w : LaneMask, starts (.mset e) (.mask e.d.toNat) w ∧
      ∀ l, l < 32 → w.getLsbD l = decide (laneOf (s.entSrc e.a) l ≠ 0)) ∧
    starts (.gadd e) (.greg k) (greg (e.modBits 14 3) + (BitVec.ofNat 14 (e.modBits 0 14)).signExtend 32) ∧
    starts (.gli e) (.greg k) ((BitVec.ofNat 17 (e.modBits 0 17)).signExtend 32) ∧
    starts (.gmov e) (.greg k) (laneOf (s.entSrc e.a) (e.modBits 0 5)) ∧
    LaneForm (.gmovVector e) s e (s.lanes e) (fun _ => greg k)))

/-- R171 to R173: a scratchpad load starts the words at its lanes' offsets in the entry's bank, as they stood before the bundle; a store writes
the words of its active lanes in ascending order, the last one winning, and no other byte of any memory. -/
def Obligations.scratchpad_entries : Prop := ∀ (s : State) (e : Entry),
  let w := s.me.win.spad
  let greg := (s.frame.old.gregs.get (8 * s.frame.grp + e.modBits 19 3) 0).toNat
  let row (l : Nat) : Nat := greg + 128 * e.modBits 9 10 + 4 * l
  let idx (l : Nat) : Nat := greg + 4 * (laneOf (s.entSrc e.b) l).toNat
  let phys (o : Nat) : Nat := spadPhys w s.me.base (e.bank.toNat * (w / 8) + o)
  let word (o : Nat) : Lane := BitVec.ofNat 32 (Mem.nat s.frame.spad (phys o) 4)
  let active (l : Nat) : Prop := l < 32 ∧ (s.lanes e).getLsbD l = true
  let stores (i : Instr) (v : VReg) (at_ : Nat → Nat) : Prop :=
    ∃ t, exec i s = .next t ∧ t.me.arch = s.me.arch ∧ (∀ a, Mem.rd t.mem a = Mem.rd s.mem a) ∧
      (∀ c a, (c = s.frame.core → ∀ l, active l → a < phys (at_ l) ∨ phys (at_ l) + 4 ≤ a) →
        Mem.rd (t.core c).spad a = Mem.rd (s.core c).spad a) ∧
      ∀ l, active l → (∀ j, active j → l < j → phys (at_ j) + 4 ≤ phys (at_ l) ∨ phys (at_ l) + 4 ≤ phys (at_ j)) →
        Mem.nat (t.core s.frame.core).spad (phys (at_ l)) 4 = (laneOf v l).toNat
  (entGate e false (spadGates s e false true false) s = .go → LaneForm (.spld e) s e (s.lanes e) (fun l => word (row l))) ∧
  (entGate e false (spadGates s e true true false) s = .go → LaneForm (.spldx e) s e (s.lanes e) (fun l => word (idx l))) ∧
  (s.memWf → entGate e false (spadGates s e false false true) s = .go → stores (.spst e) (s.entSrc e.a) row) ∧
  (s.memWf → entGate e false (spadGates s e true false true) s = .go → stores (.spstx e) (s.entSrc e.c) idx)

/-- R174, R175: the entries that the core's atomic unit serves, for one active lane: `spld.full` takes a full word and leaves it empty,
`spst.empty` fills an empty word, `spatom.add` adds to a word and returns what it held. -/
def Obligations.unit_entries : Prop := ∀ (s : State) (e : Entry) (l : Nat),
  let k := s.frame.core
  let w := s.me.win.spad
  let greg := (s.frame.old.gregs.get (8 * s.frame.grp + e.modBits 19 3) 0).toNat
  let phys (o : Nat) : Nat := spadPhys w s.me.base (e.bank.toNat * (w / 8) + o)
  let row := phys (greg + 128 * e.modBits 9 10 + 4 * l) / 4
  let at_ := phys (greg + 4 * (laneOf (s.entSrc e.b) l).toNat)
  let full := (s.core k).full
  let old := Mem.nat (s.core k).spad at_ 4
  let v := (laneOf (s.entSrc e.c) l).toNat
  let starts (t : State) (x : Lane) : Prop :=
    t.me.arch = s.me.arch ∧ ∃ p, t.me.inflight = s.me.inflight ++ [p] ∧ p.group = s.frame.grp ∧ p.dest = .vreg e.d.toNat ∧
      p.lanes = s.lanes e ∧ p.due = s.dueCycle ∧ laneOf p.data l = x
  s.memWf → l < 32 → s.lanes e = BitVec.ofNat 32 (2 ^ l) → s.frame.joint = true → s.me.served = none →
  (entryGate (.spldFull e) s = .go → row ∈ full → e.d.toNat < 48 → ∃ t, exec (.spldFull e) s = .next t ∧ SameMemory s t ∧
    starts t (BitVec.ofNat 32 (Mem.nat (s.core k).spad (4 * row) 4)) ∧ ∀ j, j ∈ (t.core k).full ↔ j ∈ full ∧ j ≠ row) ∧
  (entryGate (.spstEmpty e) s = .go → row ∉ full → ∃ t, exec (.spstEmpty e) s = .next t ∧
    SpadWritten s t k (4 * row) 4 (laneOf (s.entSrc e.a) l).toNat ∧ t.me.arch = s.me.arch ∧
    ∀ j, j ∈ (t.core k).full ↔ j ∈ full ∨ j = row) ∧
  (entryGate (.spatomAdd e) s = .go → e.d.toNat < 48 → ∃ t, exec (.spatomAdd e) s = .next t ∧
    SpadWritten s t k at_ 4 (if e.fmt = 1 then addF 0 old v else (old + v) % 2 ^ 32) ∧ starts t (BitVec.ofNat 32 old) ∧
    (t.core k).full = full)

/-- R13, R22, R23, R61, R179, R180: an `mma` or `mma.sp` whose gate is open consumes the slots of both FIFOs that its beats need, keeps its
matrix unit busy for its beats and its tile for 8 cycles longer, and puts one operation into the unit; no memory
changes, and no tile or vector register yet. -/
def Obligations.matrix_multiply_entries : Prop := ∀ (s : State) (e : Entry) (a b : Handle),
  let g := s.frame.grp
  let k := s.core s.frame.core
  let n := e.mod.toNat % 256 + 1
  let cls := mxuClass a.desc.fmt
  let p := a.desc.slotBytes / mxuBytesA cls
  let until_ := k.cycle + n * (if cls = 0 then 2 else 1)
  s.frame.old.handles.find (8 * g + 6) = some a → s.frame.old.handles.find (8 * g + 7) = some b →
  let starts (i : Instr) (sparse : Bool) : Prop :=
    entGate e false (mmaGates e sparse s) s = .go →
    ∃ t m, exec i s = .next t ∧ SameMemory s t ∧
      (t.core s.frame.core).mma.get g [] = k.mma.get g [] ++ [m] ∧ m.sparse = sparse ∧ m.beats = n ∧ m.next = 0 ∧
      m.tile = e.mod.toNat / 2 ^ 18 % 8 ∧ m.ctx = s.frame.ctx ∧
      (t.core s.frame.core).mxuBusy.get g 0 = until_ ∧
      (t.core s.frame.core).busy.get (64 * s.frame.ctx + 8 * g + m.tile) 0 = until_ + 8 ∧
      (∀ j, j = 8 * g + 6 ∨ j = 8 * g + 7 →
        (t.me.arch.handles.get j {}).consumed = (s.me.arch.handles.get j {}).consumed + n / p) ∧
      t.me.arch.tiles = s.me.arch.tiles ∧ t.me.arch.v = s.me.arch.v
  starts (.mma e) false ∧ starts (.mmaSp e) true

/-- R23, R181 to R184: `mzero` clears a tile and `mfeed` fills it from a block of eight registers, each keeping it busy for 4 cycles;
`mdrain` and `vblk` start one result for each register of their block, and nothing else, unless `mdrain` clears its tile. -/
def Obligations.tile_entries : Prop := ∀ (s : State) (e : Entry),
  let g := s.frame.grp
  let k := s.core s.frame.core
  let tile := e.mod.toNat / 2 ^ 18 % 8
  let rows := e.mod.toNat / 2 ^ 12 % 8 + 1
  let cols := e.mod.toNat / 2 ^ 9 % 8 + 1
  let reg (o : BitVec 6) (i : Nat) : Nat := 8 * (o.toNat / 8 + i / cols) + o.toNat % 8 + i % cols
  let writes (t : State) (word : Nat → Nat → Lane) : Prop :=
    (∀ r c, r < 16 → c < 16 → tileWord (t.me.arch.tiles.get (8 * g + tile) 0) r c = word r c) ∧
    (∀ j, j ≠ 8 * g + tile → t.me.arch.tiles.get j 0 = s.me.arch.tiles.get j 0) ∧
    (t.core s.frame.core).busy.get (64 * s.frame.ctx + 8 * g + tile) 0 = k.cycle + 4 ∧ SameMemory s t ∧
    t.me.inflight = s.me.inflight
  let results (t : State) (f : Nat → Nat → Lane) : Prop :=
    ∃ ps, t.me.inflight = s.me.inflight ++ ps ∧ ps.length = rows * cols ∧
      ∀ i p, ps[i]? = some p → p.group = g ∧ p.dest = .vreg (reg e.d i) ∧ p.lanes = s.lanes e ∧ p.due = s.dueCycle ∧
        ∀ l, l < 32 → laneOf p.data l = f i l
  (entryGate (.mzero e) s = .go → ∃ t, exec (.mzero e) s = .next t ∧ writes t (fun _ _ => 0)) ∧
  (entryGate (.mfeed e) s = .go → ∃ t, exec (.mfeed e) s = .next t ∧ writes t (fun r c =>
    laneOf (s.frame.old.v.get (64 * g + reg e.a ((16 * r + c) / 32)) 0) ((16 * r + c) % 32))) ∧
  (entryGate (.mdrain e) s = .go → (∀ i, i < rows * cols → reg e.d i < 48) → ∃ t, exec (.mdrain e) s = .next t ∧ SameMemory s t ∧
    results t (drainLane e s (s.tileSrc tile) (s.entSrc e.b)) ∧
    (e.modBits 21 1 = 0 → t.me.arch = s.me.arch) ∧
    (e.modBits 21 1 = 1 → ∀ r c, r < 16 → c < 16 → tileWord (t.me.arch.tiles.get (8 * g + tile) 0) r c = 0)) ∧
  (entryGate (.vblk e) s = .go → (∀ i, i < rows * cols → reg e.d i < 48) → ∃ t, exec (.vblk e) s = .next t ∧ SameMemory s t ∧
    t.me.arch = s.me.arch ∧ results t (fun i l =>
      blkLane e.blkOp e.rm (laneOf (s.frame.old.v.get (64 * g + reg e.a i) 0) l) (laneOf (s.entSrc e.b) l)
        (tileWord (s.tileSrc tile) ((32 * i + l) / 16 % 16) ((32 * i + l) % 16))))

-- the broadcast and select slots

/-- R16, R17, R18, R20: a broadcast form of the core's table-set holder brings the declared index's entries of the groups it selects, all
eight or those of its mask, to be performed next with its ARG and the index's class, and changes nothing else: every selected group's entry but
the no-operation, and nothing else, in ascending order of the groups. R58, R59, R214: `rngseed`
empties the random-bit queue and sets its fill count from lanes 0 and 1; `rngctl` enables or disables filling, and empties the queue when
asked; both change nothing else. -/
def Obligations.broadcast_and_random_queue_forms : Prop :=
  (∀ (s : State) (i : BitVec 10) (a m : BitVec 8) (ix : Index),
  let f := s.frame
  let c := s.core f.core
  let goes (gs : List Nat) : State :=
    { s with frame := { f with arg := a, cls := ix.cls, todo := groupForms s f.core i.toNat gs ++ f.todo } }
  c.front.find i.toNat = some ix → c.owner = some s.me.launch →
  exec (.bx i a) s = .next (goes [0, 1, 2, 3, 4, 5, 6, 7]) ∧
  exec (.bxm i a m) s = .next (goes ((List.range 8).filter (fun g => m.getLsbD g))) ∧
  ∀ gs, (∀ p j, (p, j) ∈ groupForms s f.core i.toNat gs ↔
      ∃ g ∈ gs, p = .lg g ∧ entryInstr (ix.entries.getD g 0) = some j ∧ j ≠ .entryNop) ∧
    (gs.Pairwise (· < ·) → (groupForms s f.core i.toNat gs).Pairwise (fun a b => ∃ g h, a.1 = .lg g ∧ b.1 = .lg h ∧ g < h))) ∧
  (∀ (s : State) (g : BitVec 3) (a : BitVec 6) (f e : BitVec 1),
  let v := s.frame.old.v.get (64 * g.toNat + a.toNat) 0
  (Gate.pick [regsGate [a] s, colMarkGate g [a] s] = .go → exec (.rngseed g a) s = .next (s.arch (fun y =>
    { y with rbq := [], rfill := (laneOf v 0).toNat + (laneOf v 1).toNat * 2 ^ 32 }))) ∧
  exec (.rngctl f e) s = .next (s.arch (fun y => { y with rngOn := e == 1, rbq := if f = 1 then [] else y.rbq })))

/-- R209 to R213: the X forms. `cload` writes the keys of a column from a pair of registers (and the rows as tags when it says so), `ctag`
its tags, `cclr` clears a range of columns, `cstore` starts two results a cycle on, `cx` enters its operation; each occupies the unit
for its stages and leaves memory as it is. -/
def Obligations.column_forms : Prop :=
  ∀ (s : State) (g c j d n : BitVec 3) (a b : BitVec 6) (r k : BitVec 1),
  let y := s.frame.old
  let core := s.core s.frame.core
  let row (i : Nat) : Lane :=
    if i < 32 then laneOf (y.v.get (64 * g.toNat + a.toNat) 0) i else laneOf (y.v.get (64 * g.toNat + b.toNat) 0) (i - 32)
  let gate (l : List Gate) : Prop := Gate.pick l = .go
  let others (t : State) (q : Nat) : Prop := ∀ m i, m ≠ q → i < 64 → colCell t.me.arch m i = colCell s.me.arch m i
  let busy (t : State) (n : Nat) : Prop :=
    (t.core s.frame.core).colBusy = core.cycle + n ∧ (t.core s.frame.core).colCtx = s.frame.ctx ∧ SameMemory s t
  exec .xnop s = .next s ∧
  (gate [regsGate [a, b] s, colMarkGate g [a, b] s, colGate [c.toNat] s] →
    (∃ t, exec (.cload g a b c r) s = .next t ∧ busy t 1 ∧ others t c.toNat ∧ ∀ i, i < 64 →
      cellKey (colCell t.me.arch c.toNat i) = row i ∧
      cellTag (colCell t.me.arch c.toNat i) =
        if r = 1 then BitVec.ofNat 16 i else cellTag (colCell s.me.arch c.toNat i)) ∧
    ∃ t, exec (.ctag g a b c) s = .next t ∧ busy t 1 ∧ others t c.toNat ∧ ∀ i, i < 64 →
      cellKey (colCell t.me.arch c.toNat i) = cellKey (colCell s.me.arch c.toNat i) ∧
      cellTag (colCell t.me.arch c.toNat i) = (row i).setWidth 16) ∧
  (gate [regsGate [a, b] s, colGate [c.toNat] s] → ∃ t p q, exec (.cstore g a b c k) s = .next t ∧ busy t 1 ∧
    t.me.arch = s.me.arch ∧ t.me.inflight = s.me.inflight ++ [p, q] ∧ p.group = g.toNat ∧ q.group = g.toNat ∧
    p.dest = .vreg a.toNat ∧ q.dest = .vreg b.toNat ∧ p.due = core.cycle + 1 ∧ q.due = core.cycle + 1 ∧ ∀ i, i < 32 →
      let cell (n : Nat) : Lane :=
        let x := colCell y c.toNat n
        if k = 1 then (cellTag x).setWidth 32 else cellKey x
      laneOf p.data i = cell i ∧ laneOf q.data i = cell (32 + i)) ∧
  (colGate (colRange c g) s = .go →
    (∃ t o, exec (.cx g c j d n) s = .next t ∧ busy t (n.toNat + 1) ∧ t.me.arch = s.me.arch ∧
      (t.core s.frame.core).colOps = core.colOps ++ [o] ∧ o.ctx = s.frame.ctx ∧ o.lo = c.toNat ∧ o.hi = c.toNat + g.toNat ∧
      o.j = j.toNat ∧ o.d = d.toNat ∧ o.s = 0 ∧ o.beats = n.toNat + 1) ∧
    ∃ t, exec (.cclr g c) s = .next t ∧ busy t 1 ∧ ∀ m i, m < 8 → i < 64 →
      colCell t.me.arch m i = if c.toNat ≤ m ∧ m ≤ c.toNat + g.toNat then BitVec.ofNat 48 (i * 2 ^ 32 + 0x7FC00000)
        else colCell s.me.arch m i)

-- the engine slot

/-- R127, R185, R186, R189, R252: an engine command whose gate is open takes the next number of its engine context and joins its queue
with its operation, block address, operand, flags and the scope entry as it stands; no register and no byte of memory changes, and no
other engine context. -/
def Obligations.engine_commands_are_accepted : Prop := ∀ (s : State) (d o sc : BitVec 5) (n : BitVec 3) (h : BitVec 1),
  let desc := if d = 0 then noBlock else (s.srcS d).toNat
  let e := s.me.eng n.toNat
  let joins (i : Instr) (c : EngCmd) : Prop :=
    ∃ t, exec i s = .next t ∧ t.me.eng n.toNat = { e with issued := e.issued + 1, cmds := e.cmds ++ [c] } ∧
      (∀ m, m ≠ n.toNat → t.me.eng m = s.me.eng m) ∧ t.me.arch = s.me.arch ∧ SameMemory s t
  let accepted (i : Instr) (useSc : Bool) (op opnd scn flags : Nat) : Prop :=
    engGate desc 16 n (BitVec.ofNat 5 scn) useSc s = .go →
    ∃ tag, joins i { num := e.issued + 1, op := op, desc := desc, opnd := opnd, sc := scn, flags := flags
                     snap := s.scopeNow scn, tag := tag, at_ := s.free
                     selTab := if op = 9 then selTabNow s (s.frame.core / 512) else [] }
  let v := (s.srcS o).toNat
  let q := sc.toNat
  accepted (.copy d o n sc h) true 0x01 v q h.toNat ∧ accepted (.copyx d o n sc h) true 0x02 v q h.toNat ∧
  accepted (.gather d n sc) true 0x03 0 q 0 ∧ accepted (.scatter d n sc) true 0x04 0 q 0 ∧
  accepted (.tload d n) false 0x05 0 0 0 ∧ accepted (.tseal d n) false 0x06 0 0 0 ∧
  accepted (.smload d o n) false 0x07 v 0 0 ∧ accepted (.imload d n) false 0x08 0 0 0 ∧
  accepted (.coll d n sc) true 0x09 0 q 0 ∧ accepted (.tready d o n) false 0x0A v 0 0 ∧
  accepted (.mldr d n sc) true 0x0B 0 q 0 ∧ accepted (.mred d n sc) true 0x0C 0 q 0 ∧
  accepted (.route d n sc) true 0x0D 0 q 0 ∧ accepted (.ltxOpen d n sc) true 0x0E 0 q 0 ∧
  accepted (.ltxCommit d o n sc) true 0x0F v q 0 ∧ accepted (.ltxAbort d o n sc) true 0x10 v q 0 ∧
  accepted (.aeMap d n sc) true 0x11 0 q 0 ∧ accepted (.aeMapMatrices d n sc) true 0x11 0 q 1 ∧
  accepted (.aeMapUnmap d n sc) true 0x11 0 q 2 ∧ accepted (.aeGate d n sc) true 0x12 0 q 0 ∧
  accepted (.aeSwap d n sc) true 0x13 0 q 0 ∧ accepted (.aeNorm d n sc) true 0x14 0 q 0 ∧
  accepted (.aeProj d n sc) true 0x15 0 q 0 ∧ accepted (.cancel d o n) false 0x17 v 0 0 ∧
  (trigGate desc n s = .go → ∃ c, joins (.trig d n) c ∧ c.num = e.issued + 1 ∧ ∀ body k,
    (acceptBytes s s.frame.core s.frame.ctx desc 56).res = .ok body → trigHeld s n.toNat (e.issued + 1) body = .ok k →
    if k.thresh ≤ (s.me.eng k.watch).tl then c.op = k.op ∧ c.desc = k.desc ∧ c.opnd = k.opnd ∧ c.flags = k.flags ∧ c.trig = none
    else c.op = 0x16 ∧ c.trig = some k)

-- issue and the machinery of a core

/-- R10, R11, R39, R71, R84, R85: BUNDLE_ISSUE. When the selected context owes nothing, and the bundle at its PC passes every check, waits for
nothing and is not committing, its frame is open and the forms that its syllables decode to, each of them that is not an empty A, G or
E syllable, are to be performed, in the model's order S1, A, G, E, X and S0 (log entries 27 and 104); a core without contexts only passes a
cycle of the present (log entry 12). -/
def Obligations.bundle_issue_event : Prop := ∀ (s : State),
  let ck := s.ev.core
  (∀ (x n : Nat) (w : ImWord),
    let s1 := s.modCore ck (fun c => { c with selCtx := x, selHeld := n })
    let c := s1.ctx ck x
    let b := w.bits
    let u := openFrame s1 ck x b
    select s ck = some (x, n) → c.issueAt ≤ (s.core ck).cycle → c.ckOwed = 0 → c.deferred = 0 → c.drain = false →
    fetch s1 ck x = some w → executes (hdrOf b) c.arch = true → issueCause u ck x w true = 0 → operandStall u ck x b = false →
    overLimit u ck x b = false → bundleCommits u ck b = false → Gate.pick ((bundleParts u ck b).map (·.1)) = .go →
    jointWaits u b = false →
    ∃ t, exec .bundleIssue s = .next t ∧ t.frame = { u.frame with todo := performOrder b, clear := true } ∧
      t.ctx ck x = { c with status := .ready } ∧ (t.frame.core, t.frame.ctx, t.frame.pc) = (ck, x, c.arch.pc) ∧
      (∀ p i, (p, i) ∈ t.frame.todo ↔
        p ∈ [.s1, .a, .g, .e, .x, .s0] ∧ emptyAt b p = false ∧ decode (posSlot p) (posWord b p) = some i) ∧
      (t.frame.todo.map (·.1)).Sublist [.s1, .a, .g, .e, .x, .s0] ∧ SameMemory s t) ∧
  (select s ck = none → residents (s.core ck) = [] → s.throttleOf ck = 0 →
    ∃ t, exec .bundleIssue s = .next t ∧ (t.core ck).cycle = max (s.core ck).cycle ((s.tick + 1) / 2 - (s.core ck).lag) + 1)

/-- R11, R12, R40: a step that issues a bundle performs its forms one after another with the meaning of each, at the position that it stands
in, and then ends the bundle; the next form starts from what the one before it left.
That they are performed one after another, each from what the last left, is the model's choice (log entries 9 and 27). -/
def Obligations.a_step_performs_the_decoded_forms : Prop := ∀ (s : State) (e : EvArgs) (rest : List (Instr × EvArgs)) (u : State),
  let s' := ({ s with agenda := rest } : State).atEvent e
  s.agenda = (.bundleIssue, e) :: rest → ({ s with agenda := rest } : State).stands .bundleIssue e = false →
  exec .bundleIssue s' = .next u → u.frame.active = true →
  step s = runFrame exec (frameCommits u) 16 u ∧
  (∀ (commit : Bool) (n : Nat) (v w : State) (p : Pos) (i : Instr) (t : List (Pos × Instr)), v.frame.todo = (p, i) :: t →
    exec i { v with frame := { v.frame with todo := t, pos := p } } = .next w →
    runFrame exec commit (n + 1) v = runFrame exec commit n w) ∧
  ∀ (commit : Bool) (n : Nat) (v : State), v.frame.todo = [] → v.frame.gone = false →
    runFrame exec commit (n + 1) v = .next (closeBundle v commit)

/-- R20 to R23, R39, R40: SELECTOR_ROTATION gives the slot to the context that issues next; RESULT_WRITE lands a context's due results in
the active lanes of their registers, and one that saturated an infinity sets FSTAT.QSAT (R69); BEAT_COUNT_EXPIRY and TILE_BUSY_CLEAR forget counts and busy bits whose cycle has come and keep the
others; L1INV_COMPLETE ends an invalidation whose cycles have passed. R58, R61 to R63, R180, R214: MMA_BEAT performs the next beat
of an operation that is due, leaving in each word of its tile the unit's sum for that beat;
RBQ_FILL_SLOT, every fourth cycle, appends the next entry of the generator to the queue of the next enabled context in
turn.
The beats' times are the model's choice (log entry 40). -/
def Obligations.core_events : Prop :=
  (∀ (s : State),
  let ck := s.ev.core
  let k := s.core ck
  (∀ x n, select s ck = some (x, n) → ∃ t, exec .selectorRotation s = .next t ∧ (t.core ck).selCtx = x ∧ SameMemory s t) ∧
  (∀ x p i, 0 < k.cycle → (s.ctx ck x).inflight = [p] → p.dest = .vreg i → p.due < k.cycle →
    ∃ t, exec .resultWrite s = .next t ∧ (t.ctx ck x).inflight = [] ∧ SameMemory s t ∧ ∀ l, l < 32 →
      laneOf ((t.ctx ck x).arch.v.get (64 * p.group + i) 0) l =
        if p.lanes.getLsbD l then laneOf p.data l else laneOf ((s.ctx ck x).arch.v.get (64 * p.group + i) 0) l) ∧
  (∀ x p, 0 < k.cycle → (s.ctx ck x).inflight = [p] → p.due < k.cycle → ∃ t, exec .resultWrite s = .next t ∧ (t.ctx ck x).inflight = [] ∧
    (t.ctx ck x).fstat = if p.qsat then (s.ctx ck x).fstat ||| 1 else (s.ctx ck x).fstat) ∧
  (∃ t, exec .beatCountExpiry s = .next t ∧ (∀ b, b ∈ (t.core ck).mxuBusy ↔ b ∈ k.mxuBusy ∧ k.cycle < b.2) ∧
    (t.core ck).colBusy = (if k.colBusy ≤ k.cycle then 0 else k.colBusy) ∧ SameMemory s t) ∧
  (∃ t, exec .tileBusyClear s = .next t ∧ (∀ b, b ∈ (t.core ck).busy ↔ b ∈ k.busy ∧ k.cycle < b.2) ∧ SameMemory s t) ∧
  (k.l1until ≤ k.cycle → ∃ t, exec .l1invComplete s = .next t ∧ (t.core ck).l1until = 0 ∧ SameMemory s t)) ∧
  (∀ (s : State),
  let ck := s.ev.core
  let g := s.ev.group
  let k := s.core ck
  (∀ m, k.mma.get g [] = [m] → m.next < m.beats → m.due ≤ k.cycle →
    let t0 := (s.ctx ck m.ctx).arch.tiles.get (8 * g + m.tile) 0
    let rec_ := k.side.get (128 * g + (m.meta_ + m.next) % 128) 0
    ∃ t, exec .mmaBeat s = .next t ∧ (t.core ck).mma.get g [] = [{ m with next := m.next + 1, due := m.due + m.step }] ∧
      (∀ r c, r < 16 → c < 16 → tileWord ((t.ctx ck m.ctx).arch.tiles.get (8 * g + m.tile) 0) r c =
        m.word rec_ m.next (m.beatA m.next) (m.beatB m.next) t0 r c) ∧ SameMemory s t) ∧
  (let n := k.cycle - (s.pkg (ck / 512)).bootCycle
   (n % 4 ≠ 0 → exec .rbqFillSlot s = .next (s.setCore ck k)) ∧
   (n % 4 = 0 → k.rngAt ≠ n + 1 → ∀ x, ((List.range 4).map (fun i => (k.rngLast + 1 + i) % 4)).find? (fun y => rbqRoom (k.ctx y)) = some x →
    ∃ t, exec .rbqFillSlot s = .next t ∧ SameMemory s t ∧ (t.core ck).rngLast = x ∧ (t.core ck).rngAt = n + 1 ∧
      (t.ctx ck x).arch.rbq = (s.ctx ck x).arch.rbq ++
        [BitVec.ofNat 8192 (fillEntry (s.ctx ck x).arch.rngKey.toNat (s.ctx ck x).arch.rfill 64)] ∧
      (t.ctx ck x).arch.rfill = ((s.ctx ck x).arch.rfill + 1) % 2 ^ 64)))

/-- R210, R211, R213: COLUMN_STAGE performs the stage that is due of an operation of the column select unit: in every column of the range,
rows at distance 2^h are exchanged when the lower-ranking one stands where the other belongs, whole cells with key and tag; every other
column is as it was, and the next stage follows a cycle later until the last. -/
def Obligations.column_stage_event : Prop := ∀ (s : State) (o : ColOp),
  let ck := s.ev.core
  let cell := colCell (s.ctx ck o.ctx).arch
  let key (x : BitVec 48) : Nat := (x.setWidth 32).toNat
  let tag (x : BitVec 48) : Nat := x.toNat / 2 ^ 32
  let nan (x : BitVec 48) : Prop := key x / 2 ^ 23 % 256 = 255 ∧ key x % 2 ^ 23 ≠ 0
  let before (x y : BitVec 48) : Prop :=
    (¬ nan x ∧ ¬ nan y ∧ (compareF 6 (key x) (key y) = true ∨ compareF 0 (key x) (key y) = true ∧ tag x < tag y)) ∨
    (nan y ∧ ¬ nan x) ∨ (nan x ∧ nan y ∧ tag x < tag y)
  let h := o.j - o.s
  (s.core ck).colOps = [o] → o.due ≤ (s.core ck).cycle → o.j ≤ 5 → ∃ t, exec .columnStage s = .next t ∧ SameMemory s t ∧
    (t.core ck).colOps = (if o.s + 1 < o.beats then [{ o with s := o.s + 1, due := o.due + 1 }] else []) ∧
    (∀ c i, c < 8 → i < 64 → ¬ (o.lo ≤ c ∧ c ≤ o.hi) → colCell (t.ctx ck o.ctx).arch c i = cell c i) ∧
    ∀ c i, c < 8 → o.lo ≤ c → c ≤ o.hi → i < 64 → i / 2 ^ h % 2 = 0 →
      let k := i + 2 ^ h
      let desc : Prop := o.d = 6 ∨ o.d ≤ 5 ∧ i / 2 ^ o.d % 2 = 0
      let swap : Prop := (desc ∧ before (cell c k) (cell c i)) ∨ (¬ desc ∧ before (cell c i) (cell c k))
      (swap → colCell (t.ctx ck o.ctx).arch c i = cell c k ∧ colCell (t.ctx ck o.ctx).arch c k = cell c i) ∧
      (¬ swap → colCell (t.ctx ck o.ctx).arch c i = cell c i ∧ colCell (t.ctx ck o.ctx).arch c k = cell c k)

/-- R32, R34, R35, R36: a checkpoint closes the snapshot (the registers become what a trap returns to), hands over the context's withheld
stores in order, releases its held output entries and empties the region's limits; CHECKPOINT takes one that is owed. A rollback returns
the registers to the snapshot and drops the region's stores and results. -/
def Obligations.checkpoint_and_rollback : Prop := ∀ (s : State) (ck x : Nat),
  let c := s.ctx ck x
  (let t := checkpoint s ck x
   (t.ctx ck x).snap = (t.ctx ck x).arch ∧ (t.ctx ck x).arch.s = c.arch.s ∧ (t.ctx ck x).arch.v = c.arch.v ∧
   (t.ctx ck x).arch.pc = c.arch.pc ∧ (t.ctx ck x).arch.tiles = c.arch.tiles ∧ (t.ctx ck x).arch.held = [] ∧
   (t.ctx ck x).ckOwed = 0 ∧ (t.ctx ck x).shadowV = [] ∧
   (t.core ck).wbuf = (s.core ck).wbuf.filter (fun st => st.ctx != x) ∧
   (c.released = [] → (t.core ck).hand = (s.core ck).hand ++ (s.core ck).wbuf.filter (fun st => st.ctx == x))) ∧
  (let t := rollback s ck x
   (t.ctx ck x).arch = c.snap ∧ (t.ctx ck x).inflight = [] ∧ SameMemory s t ∧
   (t.core ck).wbuf = (s.core ck).wbuf.filter (fun st => st.ctx != x)) ∧
  (s.ev.core = ck → s.ev.ctx = x → c.ckOwed = 1 → drained s ck x = true → c.preempt = false →
    exec .checkpoint s = .next (checkpoint s ck x))

/-- R31, R32, R129 to R131, R240, R243, R246, R251, R263: WITHHELD_STORE_DRAIN moves a core's oldest handed-over store to its die;
STORE_ACKNOWLEDGEMENT performs a store of the die at its home, after any earlier one to the same bytes: each of its bytes, in HBM or in the
scratchpad that it names, takes the store's value; R260, R262: one to a race-checked page finds a race where its sector's shadow word is of
another writer whose interval is still the word's: in trap mode that is reported to the context, in log mode a record follows in the race log,
if there is one; the sector's shadow word then is the store's own; RELEASE_HANDOVER hands on a release whose earlier stores are acknowledged; LOAD_RETURN reads
the bytes that stand at a load's place in HBM, host memory or a scratchpad, or L1's copy of them, and delivers values in load order, an
ordered load's acquire with its value; a committing form marked uncorrectable gets all ones and defers DATA_UE; a race, or another marked load,
traps; RACE_REPORT leaves RACE to be raised at the context's next bundle.
The rest before a trap is log entry 20; which place and which copy an access reads rests on log entries 14, 35 and 92. -/
def Obligations.store_and_load_events : Prop := ∀ (s : State),
  let ck := s.ev.core
  let x := s.ev.ctx
  let c := s.ctx ck x
  let given (l : Load) (v : Word) : Prop := ∃ t, exec .loadReturn s = .next t ∧ (t.ctx ck x).loads = [] ∧ SameMemory s t ∧
    (∀ r, 0 < r → r < 31 → (∀ p ∈ c.arch.sWait, p.1 = r ↔ p.2 = l.id) → c.arch.sWait.find r = some l.id →
      (t.ctx ck x).arch.readS r = v + c.arch.sAdd.get r 0 ∧ (t.ctx ck x).arch.sWait.find r = none) ∧
    (∀ q, c.arch.ldq = { id := l.id, val := none } :: q → (t.ctx ck x).arch.readS 31 = v) ∧
    (t.ctx ck x).deferred = (if l.ue then 0x0E else c.deferred) ∧
    (l.acq = none → (t.ctx ck x).interval = c.interval ∧ (t.ctx ck x).latchBuf = c.latchBuf) ∧
    ∀ n e, l.acq = some (n, e) → (t.ctx ck x).interval = c.interval + 1 ∧ (t.ctx ck x).lastSc = n ∧ (t.ctx ck x).lastGen = e.gen ∧
      (∀ k, ∀ y ∈ (t.ctx ck x).latchBuf.get k [], y.num < (c.arch.latches.get k {}).pos) ∧ (3 ≤ e.point → NoRemoteLines t (ck / 128))
  (∀ st rest, (s.core ck).hand = st :: rest → ∃ t, exec .withheldStoreDrain s = .next t ∧ (t.core ck).hand = rest ∧
    (t.die (ck / 128)).slice = (s.die (ck / 128)).slice ++ [st] ∧ SameMemory s t) ∧
  (∀ st rest fa bs, s.memWf → (s.die s.ev.die).slice = st :: rest → s.ev.idx = 0 → st.place = .hbm (fa / 128 * 128) → st.race = 0 →
    st.cells = cellsOf (.hbm fa) bs → ∃ t, exec .storeAcknowledgement s = .next t ∧ (t.die s.ev.die).slice = rest ∧
      (∀ a, Mem.rd t.mem a = if fa ≤ a ∧ a < fa + bs.length then bs.getD (a - fa) 0 else Mem.rd s.mem a) ∧
      ∀ k a, Mem.rd (t.core k).spad a = Mem.rd (s.core k).spad a) ∧
  (∀ st rest k o bs, s.memWf → (s.die s.ev.die).slice = st :: rest → s.ev.idx = 0 → st.place = .spad k (o / 128 * 128) →
    st.cells = cellsOf (.spad k o) bs → ∃ t, exec .storeAcknowledgement s = .next t ∧ (t.die s.ev.die).slice = rest ∧ t.mem = s.mem ∧
      ∀ q a, Mem.rd (t.core q).spad a =
        if q = k ∧ o ≤ a ∧ a < o + bs.length then bs.getD (a - o) 0 else Mem.rd (s.core q).spad a) ∧
  (∀ st rest fa bs, s.memWf → (s.die s.ev.die).slice = st :: rest → s.ev.idx = 0 → st.place = .hbm (fa / 128 * 128) → st.race ≠ 0 →
    st.cells = cellsOf (.hbm fa) bs → bs ≠ [] → fa % 64 + bs.length ≤ 64 →
    let pkg := fa / 2 ^ 52
    let d := fa % 2 ^ 52 / 2 ^ 37
    let word (o : Nat) : Nat := Mem.nat s.mem (fabric pkg (0x1000000 + 32 * d + o)) 8
    let sa := fabric pkg (word 0 + 8 * (fa % 2 ^ 37 / 64))
    let w := Mem.nat s.mem sa 8
    let other : Nat × Nat := (512 * bitsOf w 21 9 + bitsOf w 12 9, bitsOf w 10 2)
    let raced : Bool := decide (w % 2 = 1) && other != (st.core, st.ctx) &&
      (s.ctx other.1 other.2).interval.toNat == bitsOf w 30 34
    let writer (x y b : Nat) : Nat := st.core / 512 * 2 ^ x + st.core % 512 * 2 ^ y + b
    let record := leBytes 8 fa ++ leBytes 8 (2 ^ 21 + writer 12 3 (st.ctx * 2)) ++ leBytes 8 w ++ leBytes 8 (s.devTime pkg)
    let logged : Mem := if st.race = 2 ∧ raced = true ∧ word 8 ≠ 0 then
        Mem.put (Mem.put s.mem (fabric pkg (word 8 + 32 * (word 0x18 % 2 ^ (word 0x10 % 32)))) record)
          (fabric pkg (0x1000000 + 32 * d + 0x18)) (leBytes 8 (word 0x18 + 1))
      else s.mem
    let shadow := st.interval.toNat * 2 ^ 30 + writer 21 12 (st.ctx % 4 * 2 ^ 10) + st.lastSc % 32 * 32 + st.lastGen % 16 * 2 + 1
    ∃ t, exec .storeAcknowledgement s = .next t ∧ (t.die s.ev.die).slice = rest ∧
      (∀ a, Mem.rd t.mem a = Mem.rd (Mem.put (Mem.put logged sa (leBytes 8 shadow)) fa bs) a) ∧
      (t.ctx st.core st.ctx).raceReport = ((st.race == 1 && raced) || (s.ctx st.core st.ctx).raceReport)) ∧
  (∀ p, c.relWait = some p → unacked s ck x p = false →
    ∃ t, exec .releaseHandover s = .next t ∧ (t.ctx ck x).relWait = none ∧ SameMemory s t ∧
      (t.core ck).hand = (s.core ck).hand ++ (s.core ck).wbuf.filter (fun st => st.rel && st.ctx == x) ∧
      (t.core ck).wbuf = (s.core ck).wbuf.filter (fun st => !(st.rel && st.ctx == x))) ∧
  (∀ l v, c.loads = [l] → s.ev.idx = 0 → l.data = some v → l.raced = false → c.status ≠ .resting →
    (l.ue = false → given l v) ∧ (l.ue = true → l.commit = true → given l (BitVec.allOnes 64))) ∧
  (∀ l, c.loads = [l] → s.ev.idx = 0 → l.data = none → l.ue = false → c.status ≠ .resting → l.target.race = 0 →
    s.marked l.target.place l.size = false → ownPending s ck x l.target l.size = false →
    ((∀ a, l.target.place = .hbm a → a % 128 + l.size ≤ 128 ∧ (l.byp = true ∨ s.l1Line ck (a / 128) = none) ∧
        (a / 2 ^ 52 = ck / 512 ∨ (s.die (ck / 128)).l2Line (a / 128) = none)) →
      storesHit (s.die (ck / 128)).slice l.target.place l.size = false →
      given l (loadValue l.size l.signed (s.readPlace l.target.place l.size))) ∧
    (∀ a y, l.target.place = .hbm a → l.byp = false → s.l1Line ck (a / 128) = some y →
      given l (loadValue l.size l.signed (fromLine y a l.size)))) ∧
  (∀ l v, c.loads = [l] → s.ev.idx = 0 → l.data = some v → l.raced = true ∨ (l.ue = true ∧ l.commit = false) → c.status = .ready →
    ∃ t u, exec .loadReturn s = .next t ∧ t = settle (settle u ck x) ck x ∧ (u.ctx ck x).status = .resting ∧
      (u.ctx ck x).rest = some { kind := 1, cause := if l.raced then 0x0F else 0x0E
                                 tcause := tcauseWord l.pc 0 (if l.raced then 0x0F else 0x0E) }) ∧
  (c.raceReport = true → c.deferred = 0 → ∃ t, exec .raceReport s = .next t ∧ (t.ctx ck x).deferred = 0x0F ∧
    (t.ctx ck x).raceReport = false ∧ SameMemory s t)

/-- R36, R334, R336: TRAP_TAKEN takes the trap that it names of a running context; IM_FETCH_AHEAD marks what it finds: a corrected word is
counted in the core's IM_CE, an uncorrectable one is poisoned and counted in IM_UE (Table 16.5). R343 to R347, R350: PAGE_WALK of an address that the die
holds a translation for caches it in the core; one whose walk finds a leaf caches it in the core and in its die, and ends the wait; one that
fails leaves TRANSLATION to the waiting bundle; one that meets a migrating leaf waits 1 µs; MIG_REREAD reads such a leaf again.
That the core and the die keep what a walk finds is the model's choice (log entries 17 and 18). -/
def Obligations.trap_and_translation_events : Prop := ∀ (s : State),
  let ck := s.ev.core
  let x := s.ev.ctx
  let c := s.ctx ck x
  let tel (t : State) (off : Nat) : Nat := (t.pkg (ck / 512)).tel.get (coreTel s ck off) 0
  (c.status = .ready → 1 ≤ s.ev.num → s.ev.num ≤ 0x10 → exec .trapTaken s = .next (takeTrap s ck x s.ev.num c.arch.pc 0)) ∧
  (∃ t, exec .imFetchAhead s = .next t ∧ s.ev.addr ∈ (t.core ck).ahead ∧ SameMemory s t ∧
    (s.ev.num = 2 → ((t.core ck).im.get s.ev.addr {}).poisoned = true ∧ tel t 0x08 = tel s 0x08 + 1 ∧ tel t 0x00 = tel s 0x00) ∧
    (s.ev.num = 1 → (t.core ck).im = (s.core ck).im ∧ tel t 0x00 = tel s 0x00 + 1 ∧ tel t 0x08 = tel s 0x08) ∧
    (s.ev.num = 0 → (t.core ck).im = (s.core ck).im ∧ t.pkgs = s.pkgs)) ∧
  (s.ev.flag = false → ∀ va, c.walk = some va → c.migHold = none →
    (∀ e, (s.die (ck / 128)).tlbFind c.pasid va = some e → ∃ t, exec .pageWalk s = .next t ∧ (t.ctx ck x).walk = none ∧
      e ∈ (t.core ck).tlb ∧ t.dies = s.dies ∧ SameMemory s t) ∧
    ((s.die (ck / 128)).tlbFind c.pasid va = none →
      (∀ w n e, walk s (ck / 512) c.pasid va = .leaf w n e → ∃ t, exec .pageWalk s = .next t ∧ (t.ctx ck x).walk = none ∧
        (∃ y ∈ (t.core ck).tlb, y.leaf = e ∧ y.va = w ∧ y.size = n ∧ y.pasid = c.pasid) ∧
        (∃ y ∈ (t.die (ck / 128)).tlbAll, y.leaf = e ∧ y.va = w ∧ y.size = n ∧ y.pasid = c.pasid) ∧ SameMemory s t) ∧
      (walk s (ck / 512) c.pasid va = .fail → ∃ t, exec .pageWalk s = .next t ∧ (t.ctx ck x).walk = none ∧
        (t.ctx ck x).walkFail = some (va, cTranslation) ∧ SameMemory s t) ∧
      (walk s (ck / 512) c.pasid va = .mig → ∃ t, exec .pageWalk s = .next t ∧ (t.ctx ck x).migHold = some (va, s.tick + 3000)))) ∧
  (s.ev.flag = false → ∀ va at_, c.migHold = some (va, at_) → at_ ≤ s.tick → c.walk = some va →
    ∀ w n e, walk s (ck / 512) c.pasid va = .leaf w n e →
    ∃ t, exec .migReread s = .next t ∧ (t.ctx ck x).migHold = none ∧ (t.ctx ck x).walk = none ∧
      ∃ y ∈ (t.core ck).tlb, y.leaf = e ∧ y.va = w ∧ y.size = n ∧ y.pasid = c.pasid)

/-- R136, R142, R174, R200, R225, R226: FULL_EMPTY_SERVICE serves a request of the unit that can be served and lets its context go on;
TICKET_RESEND answers a wait whose ticket is being served; BARRIER_PHASE_COMPLETE opens a barrier's next phase once every member has arrived and
the level's time has passed; TRIGGER_FIRE puts the held command in the trigger's place once the watched timeline has reached the threshold. -/
def Obligations.wait_events : Prop := ∀ (s : State),
  let ck := s.ev.core
  let x := s.ev.ctx
  (∀ r c' ws, (s.core ck).unitQ[s.ev.idx]? = some r → canServe (s.core ck) ((s.core ck).unitQ.take s.ev.idx) r.joint r.ops = true →
    unitRun (s.core ck) r.ops = some (c', ws) → ∃ t, exec .fullEmptyService s = .next t ∧
      (t.ctx r.core r.ctx).served = some ws ∧ (t.ctx r.core r.ctx).servedUE = opsMarked (s.core ck) r.ops ∧
      (t.ctx r.core r.ctx).status = .ready ∧ (t.core ck).full = c'.full ∧
      (t.core ck).spad = c'.spad ∧ (t.core ck).unitQ = (s.core ck).unitQ.eraseIdx s.ev.idx) ∧
  (∀ w : Waiter, (s.ctx ck x).resend = some w → (s.ctx ck x).resendAt ≤ s.tick →
    ticketPassed (leNat (if w.kind = 1 then s.dieView (ck / 128) w.place 8 else s.readPlace w.place 8)) w.ticket.toNat = true → ∃ t, exec .ticketResend s = .next t ∧
      (t.ctx ck x).granted = true ∧ (t.ctx ck x).status = .ready ∧ (t.ctx ck x).resend = none ∧ SameMemory s t) ∧
  (∀ l, s.launch s.ev.launch = some l →
    let b := l.barrier s.ev.idx s.ev.num s.ev.val
    phaseFull s l b = true → (if b.level ≤ 3 then b.lastOn.2 + Config.barrierCycles b.level ≤ s.cycleNow b.lastOn.1
      else b.lastAt + Config.barrierTicks b.level ≤ s.tick) → ∃ t m, exec .barrierPhaseComplete s = .next t ∧
      t.launch l.id = some m ∧ (m.barrier b.level b.unit b.id).phase = b.phase + 1 ∧
      (m.barrier b.level b.unit b.id).arrived = b.ahead ∧ t.cores = s.cores ∧ t.mem = s.mem) ∧
  (∀ c h, (s.eng ck x s.ev.ectx).cmds = [c] → c.num = s.ev.num → c.trig = some h → h.thresh ≤ (s.eng ck x h.watch).tl →
    (s.ctx ck x).status ≠ .resting → tagWaits s ck x h.desc = false →
    ∃ t c', exec .triggerFire s = .next t ∧ (t.eng ck x s.ev.ectx).cmds = [c'] ∧ c'.num = c.num ∧ c'.op = h.op ∧
      c'.desc = h.desc ∧ c'.opnd = h.opnd ∧ c'.flags = h.flags ∧ c'.trig = none ∧ c'.at_ = s.free ∧ SameMemory s t)

/-- R216, R220 to R222: PICKUP gives an idle context its candidate: of an item of a chunk that the core holds, the next item under the
lowest free record slot, from the image's entry, with every register at its value after pickup; of a record without a save area, what the
record says, its PRIO at most the launch's (log entry 69), and its slot leaves the ready list; R341: of one with a save area, what the save area
says. R338, R339: PREEMPTION of a running context that owes no committing bundle's checkpoint
stops it at its last checkpoint (log entry 71); CONTEXT_SAVE, once its stores are acknowledged and its commands have ended, clears its save area
and writes its parts and the record, and leaves the context idle; R339, R340, Tables 15.5 to 15.8: the parts that a save area holds. -/
def Obligations.pickup_and_preemption_events : Prop :=
  (∀ (s : State) (k : Cand),
  let ck := s.ev.core
  let x := s.ev.ctx
  let l := k.launch
  candidateFor s ck x = some k →
  (∀ ch j, k.kind = 0 → heldChunk (s.core ck) l.id = some ch → freeSlot l = some j → ∃ t, exec .pickup s = .next t ∧
    (t.ctx ck x).status = .ready ∧ (t.ctx ck x).launch = l.id ∧ (t.ctx ck x).slot = j ∧
    (t.ctx ck x).item = BitVec.ofNat 64 ch.lo ∧ (t.ctx ck x).arch = { pc := l.image.entry % 2 ^ 32 } ∧
    (t.ctx ck x).snap = (t.ctx ck x).arch ∧ (t.ctx ck x).win = l.image.win ∧ (t.ctx ck x).pasid = l.pasid) ∧
  (∀ r, k.kind = 1 → readRecord s ck l k.slot = some (r, []) → ∃ t, exec .pickup s = .next t ∧
    (t.ctx ck x).status = .ready ∧ (t.ctx ck x).launch = l.id ∧ (t.ctx ck x).slot = k.slot ∧
    (t.ctx ck x).arch = { pc := fieldAt r 0 8 % 2 ^ 32 } ∧ (t.ctx ck x).item = BitVec.ofNat 64 (fieldAt r 8 8) ∧
    (t.ctx ck x).frame = BitVec.ofNat 64 (fieldAt r 0x10 8) ∧ (t.ctx ck x).prio = min (fieldAt r 0x38 1 % 128) l.prio ∧
    ∀ m, t.launch l.id = some m → ∀ e ∈ m.readyQ.get (ck / 128) [], e.1 ≠ k.slot) ∧
  (∀ r v, k.kind = 1 → readRecord s ck l k.slot = some (r, v) → v ≠ [] → s.memWf →
    let at8 (o : Nat) : Word := BitVec.ofNat 64 (fieldAt v o 8)
    let w1 := fieldAt v 8 8
    let n1 := bitsOf w1 45 3
    let win : Windows := { l.image.win with
      vregs := fieldAt v 0x30 1, tiles := fieldAt v 0x31 1, mxu := bitsOf (fieldAt v 0x32 1) 0 1 == 1, spad := fieldAt v 0x38 4 }
    let tilesAt := 0x6000 + 1024 * win.vregs
    let mxuAt := tilesAt + 8192 * win.tiles
    let spadAt := mxuAt + (if win.mxu then 294912 else 0)
    win.vregs ≤ 48 → win.tiles ≤ 8 → ∃ t, exec .pickup s = .next t ∧
      let c := t.ctx ck x
      let a := c.arch
      c.status = .ready ∧ c.launch = l.id ∧ c.slot = k.slot ∧ c.win = win ∧ c.snap = a ∧ a.pc = fieldAt r 0 8 % 2 ^ 32 ∧
      (∀ i, 0 < i → i < 31 → a.readS i = at8 (0x80 + 8 * i)) ∧ a.p = BitVec.ofNat 8 (fieldAt v 0x180 1) ∧
      (∀ n, n < 6 →
        let y := a.loops.get n {}
        let o := 0x200 + 64 * n
        let w := fieldAt v (o + 0x10) 8
        y.remain = fieldAt v o 4 ∧ y.iter = fieldAt v (o + 4) 4 ∧ y.first = fieldAt v (o + 8) 4 ∧ y.last = fieldAt v (o + 0xC) 4 ∧
        y.run = (bitsOf w 0 1 == 1) ∧ ∀ e, e < 4 → y.strides.find e =
          if bitsOf w (4 + e) 1 = 1 then some (bitsOf w (8 * e + 8) 5, at8 (o + 0x18 + 8 * e)) else none) ∧
      a.ldq.map (·.val) = (List.range (bitsOf w1 40 5)).map (fun i => some (at8 (0x380 + 8 * i))) ∧
      (∀ g i, g < 8 → i < win.vregs → a.v.get (64 * g + i) 0 =
        BitVec.ofNat 1024 (fieldAt v (0x6000 + 128 * (win.vregs * g + i)) 128)) ∧
      (∀ g i, g < 8 → i < win.tiles → a.tiles.get (8 * g + i) 0 =
        BitVec.ofNat 8192 (fieldAt v (tilesAt + 1024 * (win.tiles * g + i)) 1024)) ∧
      (∀ g i, g < 8 → i < 8 →
        let o := 0x3800 + 1024 * g
        (i ≠ 0 → a.masks.get (8 * g + i) 0 = BitVec.ofNat 32 (fieldAt v (o + 4 * i) 4)) ∧
        a.gregs.get (8 * g + i) 0 = BitVec.ofNat 32 (fieldAt v (o + 0x20 + 4 * i) 4) ∧
        (let h := (v.drop (o + 0x40 + 48 * i)).take 48
         (fieldAt h 8 4 = 0 → a.handles.find (8 * g + i) = none) ∧
         (fieldAt h 8 4 ≠ 0 → ∃ y, a.handles.find (8 * g + i) = some y ∧ y.desc = handleOfBytes h ∧ y.consumed = fieldAt h 0x20 2 ∧
           y.produced = fieldAt h 0x20 2 + fieldAt h 0x24 2)) ∧
        (let b := (v.drop (o + 0x1C0 + 32 * i)).take 32
         let word := fieldAt b 8 8
         (bitsOf word 0 1 = 0 → a.latches.find (8 * g + i) = none) ∧
         (∀ y, a.latches.find (8 * g + i) = some y → y.src = fieldAt b 0 8 ∧ y.pos = fieldAt b 0x10 8 ∧ y.template = (bitsOf word 2 1 == 1)) ∧
         (∀ d, bitsOf word 0 1 = 1 → bitsOf word 2 1 = 1 → l.image.streamsT[fieldAt b 0 8 % 65536]? = some d →
           streamOk (l.image.features.getLsbD 1) d = true →
           ∃ y, a.latches.find (8 * g + i) = some y ∧ y.desc = streamOfBytes d) ∧
         (bitsOf word 3 1 = 1 → bitsOf word 8 8 ≠ 0 → ∀ y, a.latches.find (8 * g + i) = some y →
           c.latchBuf.get (8 * g + i) [] = [{ num := y.pos, data := 0, fault := bitsOf word 8 8 }]))) ∧
      a.rbq = (List.range n1).map (fun i => BitVec.ofNat 8192 (fillEntry (fieldAt v 0x18 8) ((fieldAt v 0x10 8 + i) % 2 ^ 64) 64)) ∧
      a.rfill = (fieldAt v 0x10 8 + n1) % 2 ^ 64 ∧ a.rngKey = at8 0x18 ∧ a.rngOn = (bitsOf w1 48 1 == 1) ∧
      (∀ m i, m < 8 → i < 64 → colCell a m i = BitVec.ofNat 48 (fieldAt v (0x2800 + 8 * (64 * m + i)) 6)) ∧
      c.fstat = at8 0x20 ∧ c.terr = BitVec.ofNat 8 (fieldAt v 0x28 1) ∧ c.sluiceCount = fieldAt v 8 4 ∧
      c.arrivals.length = bitsOf w1 32 5 ∧
      (∀ n, n < 8 →
        let o := 0x600 + 1088 * n
        (c.eng n).issued = fieldAt v o 8 ∧ (c.eng n).tl = fieldAt v (o + 8) 8 ∧
        (c.eng n).cmds.map (·.num) = (List.range (fieldAt v (o + 0x10) 1 % 64)).map (fun i => fieldAt v (o + 0x40 + 32 * i) 8)) ∧
      (win.spad % 32 = 0 → c.base % 4 = 0 → (∀ i, i < win.spad →
          Mem.rd (t.core ck).spad (spadPhys win.spad c.base i) = v.getD (spadAt + i) 0) ∧
        ∀ i, i < win.spad / 4 → (spadPhys win.spad c.base (4 * i) / 4 ∈ (t.core ck).full ↔
          bitsOf (fieldAt v (spadAt + win.spad + i / 8) 1) (i % 8) 1 = 1)) ∧
      (win.mxu = true → ∀ g, g < 8 →
        let o := mxuAt + 36864 * g
        (∀ i, i < 16384 → Mem.rd ((t.core ck).fifos.get (2 * g) []) i = v.getD (o + i) 0 ∧
          Mem.rd ((t.core ck).fifos.get (2 * g + 1) []) i = v.getD (o + 16384 + i) 0) ∧
        ∀ i, i < 128 → (t.core ck).side.get (128 * g + i) 0 = BitVec.ofNat 256 (fieldAt v (o + 32768 + 32 * i) 32)))) ∧
  (∀ (s : State) (l : Launch),
  let ck := s.ev.core
  let x := s.ev.ctx
  let c := s.ctx ck x
  (c.status = .ready → c.ckOwed < 3 → c.served = none → c.deferred = 0 →
    ∃ t u, exec .preemption s = .next t ∧ t = settle u ck x ∧ (u.ctx ck x).status = .resting ∧
      (u.ctx ck x).rest = some { kind := 0 } ∧ (u.ctx ck x).arch = c.snap) ∧
  (c.status = .resting → atRest s ck x = true → c.rest = some { kind := 0 } → s.launchOf ck x = some l →
    (∃ t, exec .contextSave s = .next t ∧ (t.ctx ck x).status = .idle) ∧
    (s.ltxs.filter (fun y => y.launch == l.id && y.state == 0 && y.parties.contains (4 * ck + x)) = [] →
      let p := ck / 512
      let at_ := c.saveArea / 128 * 128
      let s1 := clearRange s p c.pasid (blockPieces at_ (saveSize c.win))
      let s2 := (saveFixed c 0 ++ saveVariable (s.core ck) c).foldl (fun u q => u.devWrite p c.pasid (at_ + q.1) q.2) s1
      exec .contextSave s = .next ((leave (s2.devWrite p c.pasid c.recAddr
        (recordBytes c (recordWord l.imageSlot c.snap.pc 3 0 false true))) ck x).count p 0x100018)))) ∧
  (∀ (c : Ctx) (k : Core) (tc : Word),
  let a := c.snap
  let w := c.win
  let holds (o : Nat) (bs : List Byte) : Prop := (o, bs) ∈ saveFixed c tc ++ saveVariable k c
  let word (o v : Nat) : Prop := holds o (leBytes 8 v)
  let tilesAt := 0x6000 + 1024 * w.vregs
  let mxuAt := tilesAt + 8192 * w.tiles
  let spadAt := mxuAt + (if w.mxu then 294912 else 0)
  word 0 tc.toNat ∧
  word 8 ((if a.rngOn then 2 ^ 48 else 0) + a.rbq.length * 2 ^ 45 + a.ldq.length * 2 ^ 40 + c.arrivals.length * 2 ^ 32 +
    c.sluiceCount % 2 ^ 32) ∧
  word 0x10 ((a.rfill + 2 ^ 64 - a.rbq.length) % 2 ^ 64) ∧ word 0x18 a.rngKey.toNat ∧ word 0x20 c.fstat.toNat ∧ word 0x28 c.terr.toNat ∧
  word 0x30 ((if w.mxu then 2 ^ 16 else 0) + w.tiles * 256 + w.vregs) ∧ word 0x38 w.spad ∧
  word 0x80 0 ∧ (∀ i, 0 < i → i < 31 → word (0x80 + 8 * i) (a.s.get i 0).toNat) ∧
  (∃ v, word 0x180 v ∧ ∀ i, i < 8 → bitsOf v i 1 = if i = 0 then 1 else a.p.toNat / 2 ^ i % 2) ∧
  (∀ n, n < 6 → ∃ bs, holds (0x200 + 64 * n) bs ∧ bs.length = 64 ∧
    let y := a.loops.get n {}
    fieldAt bs 0 8 = (y.iter * 2 ^ 32 + y.remain) % 2 ^ 64 ∧ fieldAt bs 8 8 = (y.last * 2 ^ 32 + y.first) % 2 ^ 64 ∧
    bitsOf (fieldAt bs 0x10 8) 0 1 = (if y.run then 1 else 0) ∧ ∀ e, e < 4 →
      (∀ d, y.strides.find e = some d → bitsOf (fieldAt bs 0x10 8) (4 + e) 1 = 1 ∧ bitsOf (fieldAt bs 0x10 8) (8 * e + 8) 5 = d.1 % 32 ∧
        fieldAt bs (0x18 + 8 * e) 8 = d.2.toNat) ∧
      (y.strides.find e = none → bitsOf (fieldAt bs 0x10 8) (4 + e) 1 = 0)) ∧
  (∀ i e, a.ldq[i]? = some e → word (0x380 + 8 * i) (e.val.getD 0).toNat) ∧
  (∀ i r, c.arrivals[i]? = some r → holds (0x400 + 16 * i)
    (leBytes 8 (r.level + r.id * 8 + r.phase % 2 ^ 32 * 2 ^ 32) ++ leBytes 8 (r.core % 512 + r.core / 512 * 512))) ∧
  (∀ n, n < 8 →
    let q := (c.eng n).cmds.filter (fun m => !m.started || m.trig.isSome)
    q.length ≤ 32 → ∃ bs, holds (0x600 + 1088 * n) bs ∧ bs.length = 1088 ∧ fieldAt bs 0 8 = (c.eng n).issued % 2 ^ 64 ∧
      fieldAt bs 8 8 = (c.eng n).tl % 2 ^ 64 ∧ fieldAt bs 0x10 8 = q.length ∧ ∀ i m, q[i]? = some m →
        let o := 0x40 + 32 * i
        fieldAt bs o 8 = m.num % 2 ^ 64 ∧ fieldAt bs (o + 8) 8 =
          (if m.trig.isSome then 2 ^ 24 else 0) + m.flags % 256 * 2 ^ 16 + m.sc % 32 * 2 ^ 8 + m.op % 64 ∧
        fieldAt bs (o + 0x10) 8 = m.desc % 2 ^ 64 ∧ fieldAt bs (o + 0x18) 8 = m.opnd % 2 ^ 64) ∧
  (∀ m i, m < 8 → i < 64 → word (0x2800 + 8 * (64 * m + i)) (colCell a m i).toNat) ∧
  (∀ g, g < 8 → ∃ bs, holds (0x3800 + 1024 * g) bs ∧ bs.length = 1024 ∧ ∀ i, i < 8 →
    let binding (o fault : Nat) (b : Option Binding) : Prop :=
      (b = none → (bs.drop o).take 32 = zeros 32) ∧ ∀ y, b = some y →
        let f := fieldAt bs (o + 8) 8
        fieldAt bs o 8 = y.src % 2 ^ 64 ∧ bitsOf f 0 1 = 1 ∧ bitsOf f 1 1 = (if y.desc.entries ≤ y.pos then 1 else 0) ∧
        bitsOf f 2 1 = (if y.template then 1 else 0) ∧ bitsOf f 3 1 = (if fault = 0 then 0 else 1) ∧ bitsOf f 8 8 = fault % 256 ∧
        fieldAt bs (o + 0x10) 8 = y.pos % 2 ^ 64
    fieldAt bs (4 * i) 4 = (if i = 0 then 2 ^ 32 - 1 else (a.masks.get (8 * g + i) (BitVec.allOnes 32)).toNat) ∧
    fieldAt bs (0x20 + 4 * i) 4 = (a.gregs.get (8 * g + i) 0).toNat ∧
    (a.handles.find (8 * g + i) = none → (bs.drop (0x40 + 48 * i)).take 48 = zeros 48) ∧
    (∀ h, a.handles.find (8 * g + i) = some h →
      let o := 0x40 + 48 * i
      let p := h.produced + c.engFill.get (8 * g + i) 0
      (bs.drop o).take 32 = handleBytes h.desc ∧ fieldAt bs (o + 0x20) 2 = h.consumed % h.desc.slots % 2 ^ 16 ∧
      fieldAt bs (o + 0x22) 2 = p % h.desc.slots % 2 ^ 16 ∧ fieldAt bs (o + 0x24) 2 = (p - h.consumed) % 2 ^ 16) ∧
    binding (0x1C0 + 32 * i) (headFault c (8 * g + i)) (a.latches.find (8 * g + i)) ∧
    (i < 4 → binding (0x2C0 + 32 * i) (c.qFault.get (8 * g + i) 0) (a.queues.find (8 * g + i)))) ∧
  (∀ g i, g < 8 → i < w.vregs → holds (0x6000 + 128 * (w.vregs * g + i)) (leBytes 128 (a.v.get (64 * g + i) 0).toNat)) ∧
  (∀ g i, g < 8 → i < w.tiles → holds (tilesAt + 1024 * (w.tiles * g + i)) (leBytes 1024 (a.tiles.get (8 * g + i) 0).toNat)) ∧
  (w.mxu = true → ∀ g, g < 8 → holds (mxuAt + 36864 * g) (Mem.bytes (k.fifos.get (2 * g) []) 0 16384) ∧
    holds (mxuAt + 36864 * g + 16384) (Mem.bytes (k.fifos.get (2 * g + 1) []) 0 16384) ∧
    ∃ bs, holds (mxuAt + 36864 * g + 32768) bs ∧ bs.length = 4096 ∧
      ∀ i, i < 128 → fieldAt bs (32 * i) 32 = (k.side.get (128 * g + i) 0).toNat) ∧
  (∀ i, i < w.spad / 128 → holds (spadAt + 128 * i) (Mem.bytes k.spad (spadPhys w.spad c.base (128 * i)) 128)) ∧
  ∃ bs, holds (spadAt + w.spad) bs ∧ bs.length = w.spad / 32 ∧ ∀ i, i < w.spad / 32 * 8 →
    (bitsOf (bs.getD (i / 8) 0).toNat (i % 8) 1 = 1 ↔ spadPhys w.spad c.base (4 * i) / 4 ∈ k.full))

/-- R229, R232, R233: a steal round, once a boundary has passed, lets every dry die in turn take the upper half of the largest range;
GANG_CORE_PREPARATION prepares one core of a gang launch; GANG_PREPARATION_TIMEOUT refuses a launch with an unprepared core after 10 ms;
GANG_RELEASE lets every prepared context go once all are prepared and the start time has come. R124, R235: SLUICE_DECISION sets the swap's
time and its verdict, whether every reporting core had its back bank sealed; SLUICE_SWAP at that time gives each core that has reported, with
a member that still waits and clocks that run, its back bank
as front bank, an unsealed empty back bank and an empty L1, and raises the launch's count, or, with a negative verdict, leaves every bank as it is
and gives every waiting member of a reporting core the trap SLUICE.
The order of the rounds and what the sluice's reports keep are the model's choices (log entries 72, 73 and 120). -/
def Obligations.distribution_events : Prop :=
  (∀ (s : State) (l : Launch),
  s.launch s.ev.launch = some l →
  (∀ dies ranges thief d, stealVictim ranges dies = some d → d ≠ thief →
    let r : Nat × Nat := Tbl.get ranges d (0, 0)
    let mid := r.1 + (r.2 - r.1 + 1) / 2
    (steal dies ranges thief).get d (0, 0) = (r.1, mid) ∧ (steal dies ranges thief).get thief (0, 0) = (mid, r.2) ∧ 2 ≤ r.2 - r.1) ∧
  (stealDue s l = true →
    let dies := l.dies.filter (fun d => !(s.pkg (d / 4)).retDies.contains d && s.clocked (d / 4))
    let y := dies.foldl Launch.advance l
    let dry := dies.filter (fun d => let r : Nat × Nat := y.ranges.get d (0, 0); decide (r.2 ≤ r.1) && (y.returned.get d []).isEmpty)
    ∃ t, exec .stealRound s = .next t ∧
      t.launch l.id = some { y with stole := s.devTime l.pkg / 2000, ranges := dry.foldl (steal dies) y.ranges } ∧
      t.cores = s.cores ∧ t.mem = s.mem) ∧
  (∀ x j, l.phase = .preparing → l.frozen = false → gangLate s l = false → s.ev.core ∈ l.cores → s.ev.core ∉ l.prepared →
    coreOpen s s.ev.core = true → roomFor s s.ev.core l l.image.win = true →
    idleOf (s.core s.ev.core) = some x → freeSlot l = some j → ∃ t m, exec .gangCorePreparation s = .next t ∧
      t.launch l.id = some m ∧ m.prepared = s.ev.core :: l.prepared ∧ (t.ctx s.ev.core x).status = .prepared ∧
      (t.ctx s.ev.core x).launch = l.id ∧ (t.ctx s.ev.core x).slot = j) ∧
  (gangLate s l = true → ∃ t, exec .gangPreparationTimeout s = .next t ∧ t.launch l.id = none) ∧
  (gangReady l = true → ∃ t m, exec .gangRelease s = .next t ∧ t.launch l.id = some m ∧ m.phase = .running ∧
    ∀ q ∈ members s l.id, (s.ctx q.1 q.2).status = .prepared → s.clocked (pkgOf q.1) = true →
      (t.ctx q.1 q.2).status = .ready ∧ (t.ctx q.1 q.2).startAt = some l.start)) ∧
  (∀ (s : State) (l : Launch),
  let reports (ck : Nat) : Bool := (match (s.core ck).sampled with | some (q, _) => q == l.id | none => false) &&
    (coreMembers (s.core ck) l.id).any (fun k => k.2.inSluice) && s.clocked (pkgOf ck)
  s.launch s.ev.launch = some l →
  (sluiceGathered s l = true → ∃ t m ok, exec .sluiceDecision s = .next t ∧ t.launch l.id = some m ∧
    m.swapAt = some (s.tick + (if l.pod then 12000 else 128), ok) ∧
    (ok = true ↔ ∀ ck ∈ sluiceCores s l, ∀ q b, (s.core ck).sampled = some (q, b) → b = true) ∧ t.cores = s.cores) ∧
  (∀ at_, l.swapAt = some (at_, true) → at_ ≤ s.tick → (s.cores.map (·.1)).Nodup → ∃ t m, exec .sluiceSwap s = .next t ∧ t.launch l.id = some m ∧
    m.sluiceCount = l.sluiceCount + 1 ∧ m.swapAt = none ∧ SameMemory s t ∧
    ∀ ck, (reports ck = true → (t.core ck).front = (s.core ck).back ∧ (t.core ck).back = [] ∧ (t.core ck).sealed = false ∧
        (t.core ck).l1 = [] ∧ (t.core ck).sampled = none) ∧
      (reports ck = false → (t.core ck).front = (s.core ck).front ∧ (t.core ck).back = (s.core ck).back ∧
        (t.core ck).sealed = (s.core ck).sealed ∧ (t.core ck).sampled = (s.core ck).sampled)) ∧
  (∀ at_, l.swapAt = some (at_, false) → at_ ≤ s.tick → (s.cores.map (·.1)).Nodup →
    let ms := (members s l.id).filter (fun m => reports m.1 && (s.ctx m.1 m.2).inSluice)
    ∃ u, exec .sluiceSwap s = .next (ms.foldl (fun w m => takeTrap w m.1 m.2 0x10 (w.ctx m.1 m.2).arch.pc 0) u) ∧
      u.launch l.id = some { l with swapAt := none } ∧ (∀ ck x, u.ctx ck x = s.ctx ck x) ∧ SameMemory s u ∧
      ∀ ck, (u.core ck).front = (s.core ck).front ∧ (u.core ck).back = (s.core ck).back ∧ (u.core ck).sealed = (s.core ck).sealed ∧
        (u.core ck).sampled = if reports ck then none else (s.core ck).sampled))

/-- R187, R190 to R198, R204, R257, R274, R278 to R285, R290: the life of an engine command on an engine context that holds no other and does not
rest. ENGINE_COMMAND_START reads its block and its sources; the last member of a collective to start settles every rank's result; matrices are
loaded and state commands are received by the die's engine. ENGINE_COMMAND_PROGRESS fills the next slot of every selected group's handle, decides
a commit and performs one home's buffered writes. ENGINE_COMMAND_COMPLETE takes the command off the queue and moves the timeline to its number, with
the TERR bit for a failed one. What it does before: the writes of `copy`, `copyx`, `gather`, `scatter`, `route`, `coll` and `mldr` stand in memory, in
order; `tload` writes the back bank, or nothing if it is refused; `tseal` seals it; `smload` writes side memories, `imload` IM; `ltx.open` opens,
`ltx.commit` ends and `ltx.abort` aborts or releases a transaction.
That a command reads at START and writes at COMPLETE is the model's choice (log entry 47); log entries 58, 63 and 100 say the rest. -/
def Obligations.engine_events : Prop := ∀ (s : State) (c : EngCmd),
  let ck := s.ev.core
  let x := s.ev.ctx
  let n := s.ev.ectx
  let e := s.eng ck x n
  let launch := (s.ctx ck x).launch
  let alone : Prop := s.ltxs = [] ∧ (s.die (ck / 128)).slice = [] ∧ c.struck = []
  let done (P : State → Prop) : Prop := ∃ t, exec .engineCommandComplete s = .next t ∧ (t.eng ck x n).cmds = [] ∧ P t
  e.cmds = [c] → c.num = s.ev.num → (s.ctx ck x).status ≠ .resting →
  -- start
  (∀ body m s1, mayStart s ck x n c = true → c.verdict = none → (rdBlock s ck x c.desc (bodyBytes c)).res = .ok body →
    (readCommand s ck x { c with body := body }).res = .ok m → takeRanges s ck x n c.num m.src m.dst = some s1 →
    (c.op < 9 ∨ c.op = 0x0A ∨ (0x0D ≤ c.op ∧ c.op ≤ 0x10) ∨ c.op = 0x17 → ∃ t c', exec .engineCommandStart s = .next t ∧
      (t.eng ck x n).cmds = [c'] ∧ c'.started = true ∧ c'.verdict = none ∧ c'.data = m.data ∧ c'.writes = m.writes ∧
      c'.num = c.num ∧ c'.op = c.op ∧ c'.body = body ∧ SameMemory s t) ∧
    (c.op = 1 → c.flags = 0 → m.writes = (if fieldAt body 0x20 8 = 0 then [] else
      [{ va := fieldAt body 0x18 8, bytes := (match (rdBytes s ck x (fieldAt body 0x10 8) (fieldAt body 0x20 8)).res with | .ok bs => bs | _ => []) }])) ∧
    (c.op = 0x11 → c.flags = 1 → ∃ t, exec .engineCommandStart s = .next t ∧ SameMemory s t ∧
      let w := fieldAt body 0x18 8
      ∀ i, (t.die (ck / 128)).matrix.get i 0 =
        if bitsOf w 0 8 ≤ i ∧ i ≤ bitsOf w 0 8 + bitsOf w 8 8 then BitVec.ofNat 256 (fieldAt m.data (32 * (i - bitsOf w 0 8)) 32)
        else (s.die (ck / 128)).matrix.get i 0) ∧
    ((c.op = 0x11 ∧ c.flags ≠ 1) ∨ (0x12 ≤ c.op ∧ c.op ≤ 0x15) → ∃ t, exec .engineCommandStart s = .next t ∧ SameMemory s t ∧
      (t.die (ck / 128)).ampQ = (s.die (ck / 128)).ampQ ++ [{ core := ck, ctx := x, ectx := n, num := c.num }]) ∧
    (c.op = 9 → collKind { c with body := body } ≤ 3 →
      let c1 : EngCmd := { startedWith s c body m none with ntiles := 0 }
      let u := s1.modCmd ck x n c.num (fun _ => c1)
      ∀ g, (collGroup u ck x c1).res = .ok g →
        let seq := (nextSeq s g (collRank c1)).1
        let others := joinedAt s g seq
        let srcs := (List.range g.length).map (fun r => match others.find? (fun j => j.rank == r) with
          | some j => j.src
          | none => if collRank c1 = r then m.data else [])
        let bs := collResult (collKind c1) (collFmt c1) (collOpr c1) (collRank c1) (collBytes c1) srcs
        others.length + 1 = g.length → (∀ j ∈ others, j.key = collKey c1 ∧ (j.core, j.ctx, j.ectx, j.num) ≠ (ck, x, n, c.num)) →
        ∃ t c', exec .engineCommandStart s = .next t ∧ (t.eng ck x n).cmds = [c'] ∧ c'.ready = true ∧ SameMemory s t ∧
          c'.writes = if bs = [] then [] else [{ va := fieldAt body 0x30 8, bytes := bs }])) ∧
  (∀ a k fa, (s.die (ck / 128)).slice = [] → (∀ p ∈ blockPieces a k, ∃ g, reachEng s ck x p.1 .read = .ok g ∧ g.place = .hbm (fa + (p.1 - a)) ∧
      s.marked g.place p.2 = false ∧
      ((fa + (p.1 - a)) / 2 ^ 52 = ck / 512 ∨ (s.die (ck / 128)).l2Line ((fa + (p.1 - a)) / 128) = none)) →
    (rdBytes s ck x a k).res = .ok (Mem.bytes s.mem fa k)) ∧
  -- progress
  (c.started = true → c.verdict = none → isHdst c = true → slotsLeft s ck x c ≠ 0 →
    (∀ g ∈ selectedGroups c.opnd, (s.ctx ck x).freeSlots (8 * g + c.opnd % 8) ≠ 0) →
    ∃ t c', exec .engineCommandProgress s = .next t ∧ (t.eng ck x n).cmds = [c'] ∧ c'.slots = c.slots + 1 ∧
      ∀ g ∈ selectedGroups c.opnd, (t.ctx ck x).engFill.get (8 * g + c.opnd % 8) 0 = (s.ctx ck x).engFill.get (8 * g + c.opnd % 8) 0 + 1) ∧
  (∀ y, c.started = true → c.verdict = none → c.op = 0x0F → c.ready = false → heldLtx s launch (c.opnd % 65536) = some y → y.state = 0 →
    commitWaits s y c = false → stateWaits s y = false → ∃ t c', exec .engineCommandProgress s = .next t ∧ (t.eng ck x n).cmds = [c'] ∧
      c'.ready = true ∧ ∃ z ∈ t.ltxs, z.state = 1 ∧ z.id = y.id ∧ z.buffer = y.buffer ∧ z.homes = ltxHomes y) ∧
  (∀ y h, c.started = true → c.verdict = none → c.op = 0x0F → c.ready = true → committedLtx s ck x n c.num = some y →
    y.homes[s.ev.idx % y.homes.length]? = some h → ∃ t, exec .engineCommandProgress s = .next t ∧
      t.mem = (y.buffer.filter (fun b => homeOf b.1 == h)).foldl (fun m b => Mem.wr m b.1 b.2) s.mem ∧
      ∃ z ∈ t.ltxs, z.id = y.id ∧ z.homes = y.homes.filter (· != h)) ∧
  -- completion
  (∀ u, c.started = true → c.verdict = none → (endCmd s ck x n c).res = .ok (u, none) → e.done = [] → e.tl + 1 = c.num →
    u.ctx ck x = s.ctx ck x → done (fun t => (t.eng ck x n).tl = c.num ∧ (t.ctx ck x).terr = (s.ctx ck x).terr ∧
      (t.ctx ck x).arch = (s.ctx ck x).arch ∧ SameMemory u t)) ∧
  (∀ f, c.started = true → c.verdict = some f → c.op ≠ 0x09 → c.op ≠ 0x0B → c.op ≠ 0x0C → recordWaits s ck x n c f = false →
    e.done = [] → e.tl + 1 = c.num → n < 8 → done (fun t => (t.eng ck x n).tl = c.num ∧ (t.ctx ck x).terr.getLsbD n = true)) ∧
  (c.started = true → c.verdict = none →
    (∀ at_, alone → (isHdst c = false ∧ 1 ≤ c.op ∧ c.op ≤ 4) ∨ c.op = 0x0D ∨ (c.op = 9 ∧ collKind c ≤ 3 ∧ c.ready = true) ∨
        (c.op = 0x0B ∧ atWindow s ck x n c.num = false) → (∀ w ∈ c.writes, Placed s ck x at_ w) →
      done (fun t => t.mem = c.writes.foldl (putWrite at_) s.mem ∧ ∀ k, (t.core k).spad = (s.core k).spad)) ∧
    (c.op = 5 → (s.core ck).sampled = none → portBusy s ck c = false →
      (tableRefusal (declares s ck x 1) (s.core ck).sealed c.data = none → done (fun t => SameMemory s t ∧
        (t.core ck).front = (s.core ck).front ∧ (t.core ck).sealed = (s.core ck).sealed ∧
        ∀ j, (t.core ck).back.find j =
          if tableFirst c.data ≤ j ∧ j < tableFirst c.data + tableCount c.data ∧ tableClass c.data (j - tableFirst c.data) < 8
          then some (indexOfImage c.data (j - tableFirst c.data)) else (s.core ck).back.find j)) ∧
      (∀ f, tableRefusal (declares s ck x 1) (s.core ck).sealed c.data = some f →
        recordWaits s ck x n c { f with detail := c.word 0x10 } = false → n < 8 → done (fun t => (t.core ck).back = (s.core ck).back ∧
          (t.ctx ck x).terr.getLsbD n = true))) ∧
    (c.op = 6 → (s.core ck).sampled = none → portBusy s ck c = false → done (fun t => SameMemory s t ∧ (t.core ck).sealed = true ∧
      (t.core ck).back = (s.core ck).back ∧ (t.core ck).front = (s.core ck).front)) ∧
    (c.op = 7 → done (fun t => SameMemory s t ∧ ∀ g, g < 8 →
      let first := bitsOf (c.word 0x18) 0 7
      let count := bitsOf (c.word 0x18) 8 8 + 1
      let named := bitsOf c.opnd 0 8 = 0 ∨ bitsOf c.opnd g 1 = 1
      (named → ∀ i, i < count → count ≤ i + 128 →
        (t.core ck).side.get (128 * g + (first + i) % 128) 0 = BitVec.ofNat 256 (fieldAt c.data (32 * i) 32)) ∧
      (¬ named → ∀ r, r < 128 → (t.core ck).side.get (128 * g + r) 0 = (s.core ck).side.get (128 * g + r) 0))) ∧
    (∀ b, c.op = 8 → (s.core ck).bases.find launch = some b → done (fun t => SameMemory s t ∧
      let k := c.word 0x20
      ∀ p, (t.core ck).im.get p {} =
        if b + c.word 0x18 ≤ p ∧ p < b + c.word 0x18 + k then
          let i := p - (b + c.word 0x18)
          { bits := BitVec.ofNat 256 (fieldAt c.data (32 * i) 32), pool := bitsOf (fieldAt c.data (32 * k + i / 8) 1) (i % 8) 1 == 1 }
        else (s.core ck).im.get p {})) ∧
    (∀ at_ rs, c.op = 0x0E → alone → (ltxRanges s ck x c).res = .ok rs →
      let w : EWrite := { va := addr64 (c.desc + 0x20), bytes := zeros 8 }
      Placed s ck x at_ w → (∀ r ∈ rs, r.1 + r.2.1 ≤ at_ w.va ∨ at_ w.va + 8 ≤ r.1) → done (fun t => t.mem = putWrite at_ s.mem w ∧
        ∃ y, t.ltxs = [y] ∧ y.launch = launch ∧ y.id = ltxId c ∧ y.state = 0 ∧ y.ranges = rs ∧ y.buffer = [] ∧
          y.deadline = s.tick + ltxTimeout c)) ∧
    (∀ y, c.op = 0x0F → c.ready = true → committedLtx s ck x n c.num = some y → y.homes = [] →
      done (fun t => t.ltxs = s.ltxs.filter (· != y) ∧ SameMemory s t)) ∧
    (∀ y, c.op = 0x10 → heldLtx s launch (c.opnd % 65536) = some y →
      (y.state = 0 → done (fun t => ∀ z ∈ t.ltxs, z.launch = y.launch → z.id = y.id → z.state ≠ 0)) ∧
      (y.state ≠ 0 → done (fun t => t.ltxs = s.ltxs.filter (· != y) ∧ SameMemory s t))))

/-- R25, R26, R144, R147, R245: STREAM_FETCH keeps, for a bound latch with room, the next entry of its stream, with the lanes read from the entry's
addresses (what stands there, where no store and no cached copy of a line lies over it), or with ALIGNMENT recorded when its address is misaligned;
OUTPUT_QUEUE_DRAIN takes the oldest released entry off the context: its bytes become stores, one for each of its ranges, handed over behind the core's
stores, or are written at once in the own scratchpad; a misaligned entry is dropped and its queue marked; a store that waited behind it follows.
The mark that a misaligned entry leaves on its queue is log entry 45. -/
def Obligations.stream_events : Prop := ∀ (s : State) (b : Binding) (h : Held) (rest : List Released) (l : List (Target × Nat)),
  let ck := s.ev.core
  let x := s.ev.ctx
  let key := 8 * s.ev.group + s.ev.num
  let c := s.ctx ck x
  let n := nextFetch b (c.latchBuf.get key [])
  let kept (t : State) (e : LatchEntry) : Prop := (t.ctx ck x).latchBuf.get key [] = c.latchBuf.get key [] ++ [e] ∧ e.num = n
  let bytes := h.desc.bytesOf (h.data.getD 0)
  (c.arch.latches.find key = some b → fetchable c key = true →
    (b.desc.aligned n = false → ∃ t e, exec .streamFetch s = .next t ∧ kept t e ∧ e.fault = 0x08 ∧ SameMemory s t) ∧
    (b.desc.aligned n = true → entryTargets s ck x .read (b.desc.ranges n) = .ok l → (∀ g ∈ l, s.marked g.1.place g.2 = false ∧ g.1.race = 0) →
      ∃ t e, exec .streamFetch s = .next t ∧ kept t e ∧ e.fault = 0 ∧ SameMemory s t ∧
        e.data = b.desc.lanesOf (fetchBytes ck x b.desc l (tlbRanges s ck x (b.desc.ranges n))).2.1 ∧
        ((s.die (ck / 128)).slice = [] → (s.core ck).hand = [] → c.released = [] →
          (∀ g ∈ l, ∀ a, g.1.place = .hbm a → a % 128 + g.2 ≤ 128 ∧ b.desc.byp = true ∧ a / 2 ^ 52 = ck / 512) →
          e.data = b.desc.lanesOf (l.flatMap (fun g => s.readPlace g.1.place g.2))))) ∧
  (c.released = .entry h :: rest → h.desc.aligned h.num = false → ∃ t, exec .outputQueueDrain s = .next t ∧
    (t.ctx ck x).released = rest ∧ (t.ctx ck x).qFault.get (8 * h.group + h.queue) 0 = 0x08 ∧ SameMemory s t) ∧
  (c.released = .entry h :: rest → h.desc.aligned h.num = true → entryTargets s ck x .write (h.desc.ranges h.num) = .ok l →
    ∃ t, exec .outputQueueDrain s = .next t ∧ (t.ctx ck x).released = rest ∧ (t.ctx ck x).arch = c.arch ∧
      ((∀ g ∈ l, ∀ o, g.1.place ≠ .spad ck o) → SameMemory s t ∧
        (t.core ck).hand = (s.core ck).hand ++ entryStores c ck x h.desc.rd l bytes) ∧
      ((∀ g ∈ l, ∃ o, g.1.place = .spad ck o) → t.mem = s.mem ∧ (t.core ck).hand = (s.core ck).hand ∧
        (t.core ck).spad = entryPuts (s.core ck).spad l bytes)) ∧
  (∀ st, c.released = .store st :: rest → ∃ t, exec .outputQueueDrain s = .next t ∧ (t.ctx ck x).released = rest ∧ SameMemory s t ∧
    (t.core ck).hand = (s.core ck).hand ++ [st])

/-- R65, R202 to R208, R281, R283, R288 to R292: the events by which other agents settle commands. LTX_TIMEOUT aborts an open transaction whose time is
over; TILE_FIRE performs the entries of a tile whose ready flag is set, once: an entry of op 1 leaves its source's bytes, one of op 2 or 3 adds its word;
WINDOW_ROUND_MERGE and MEMBER_ABSENT_TIMEOUT end a round, of which no contribution stays, and a round that all members have joined leaves the
merged element or granule at its home, or delivers the merged granule to the requesting commands; COLLECTIVE_TIMEOUT fails a joined
collective; AE_STATE_COMMAND_PERFORM establishes the state that a map command of a die of its own describes, performs a gate, a swap, a norm or a
projection on the arrays of all members, and takes a command of a die without a state off its queue with the engine's failure.
The clauses rest on the model's choices of log entries 57, 60, 61, 64, 89 and 107. -/
def Obligations.settling_events : Prop := ∀ (s : State),
  let ck := s.ev.core
  let x := s.ev.ctx
  let n := s.ev.ectx
  (∀ t, heldLtx s s.ev.launch s.ev.num = some t → t.state = 0 → t.deadline ≤ s.tick → ∃ u, exec .ltxTimeout s = .next u ∧
    ∀ y ∈ u.ltxs, y.launch = t.launch → y.id = t.id → y.state ≠ 0) ∧
  (∀ c es, (s.eng ck x n).cmds = [c] → c.num = s.ev.num → c.started = true → c.ready = true → c.verdict = none →
    s.ev.idx < c.ntiles → flagSet s ck (flagWord s ck x c s.ev.idx) = true → s.ev.idx ∉ c.fired →
    es = (List.range (collFanout c)).map (fun j => tileEntry c.data (collFanout c * s.ev.idx + j)) →
    (∃ r, (Rd.mapM (checkTileEntry s ck x c) es).res = .ok r) → ∃ t c', exec .tileFire s = .next t ∧
      (t.eng ck x n).cmds = [c'] ∧ c'.fired = s.ev.idx :: c.fired ∧ c'.num = c.num ∧
      SameMemory (es.foldl (performTileEntry ck x c) (s, none)).1 t) ∧
  (∀ (c : EngCmd) (e : TileEntry) bs, s.ltxs = [] → (s.die (ck / 128)).slice = [] → (rdBytes s ck x e.laddr e.bytes).res = .ok bs →
    (∀ at_, e.op = 1 → Placed s ck x at_ { va := e.raddr, bytes := bs } →
      (performTileEntry ck x c (s, none) e).1.mem = Mem.put s.mem (at_ e.raddr) bs ∧ (performTileEntry ck x c (s, none) e).2 = none) ∧
    (∀ g fa, e.op = 2 ∨ e.op = 3 → e.bytes = 4 → reachEng s ck x e.raddr .both = .ok g → g.place = .hbm fa → g.race = 0 → (s.core ck).hand = [] →
      atomPlace s ck c.snap.point g.place = .home fa →
      (performTileEntry ck x c (s, none) e).1.mem =
        let old := Mem.nat s.mem fa 4
        let v := fieldAt bs 0 4
        Mem.put s.mem fa (leBytes 4 (if e.op = 2 then addF 0 old v else (old + v) % 2 ^ 32)))) ∧
  (∀ w, findWindow s.ev.num s.windows = some w → roundOf w s.ev.val s.ev.idx ≠ [] → w.contribs.Nodup →
    let cs := roundOf w s.ev.val s.ev.idx
    let rb := formatBits w.rfmt / 8
    (s.ev.val = 0 ∨ s.ev.val = 2 → (roundState s w cs).2 = true → ∃ t, exec .windowRoundMerge s = .next t ∧
      (∀ y, findWindow s.ev.num t.windows = some y → ∀ q ∈ y.contribs, ¬ (q ∈ cs)) ∧
      ((roundState s w cs).1 = true → s.memWf →
        (∀ h, s.ev.val = 0 → (∀ i, i < rb → homeByte w (s.ev.idx * rb + i) = h + i ∧ s.clocked (diePkg (homeOf (h + i))) = true) →
          HbmWritten s t h rb (reduceElem w.fmt w.rfmt w.opr (cs.map (fun q => q.val.toNat)))) ∧
        (∀ h, s.ev.val = 2 →
          let k := 1024 / formatBits w.fmt
          let bs := reduceBytes w.fmt w.rfmt w.opr k (cs.map (fun q => leBytes 128 q.val.toNat))
          (∀ i, i < bs.length → homeByte w (s.ev.idx * k * rb + i) = h + i ∧ s.clocked (diePkg (homeOf (h + i))) = true) →
          ∀ a, Mem.rd t.mem a = if h ≤ a ∧ a < h + bs.length then bs.getD (a - h) 0 else Mem.rd s.mem a))) ∧
    (∀ ls, s.ev.val = 1 → (roundState s w cs) = (true, true) → (memberGranules s w s.ev.idx cs).res = .ok ls → (cs.map (·.cmd)).Nodup →
      ∃ t, exec .windowRoundMerge s = .next t ∧ ∀ q ∈ cs, ∀ k m j, q.cmd = some (ck, x, n, m) → (s.eng ck x n).cmds = [k] → k.num = m →
        (t.eng ck x n).cmds = [j] → j.writes = k.writes ++
          [{ va := addr64 (q.laddr + ((128 * s.ev.idx - k.word 0x20) / (formatBits w.fmt / 8) * (formatBits w.rfmt / 8) : Nat))
             bytes := reduceBytes w.fmt w.rfmt w.opr (1024 / formatBits w.fmt) ls }]) ∧
    (s.ev.val = 0 ∨ s.ev.val = 2 → (∀ q ∈ cs, q.since + w.timeout ≤ s.tick) → ∃ t, exec .memberAbsentTimeout s = .next t ∧
      ∀ y, findWindow s.ev.num t.windows = some y → ∀ q ∈ y.contribs, ¬ (q ∈ cs))) ∧
  (∀ c j, (s.eng ck x n).cmds = [c] → c.num = s.ev.num → c.op = 9 → c.started = true → c.verdict = none →
    s.colls = [j] → j.core = ck → j.ctx = x → j.ectx = n → j.num = c.num → j.since + collTimeout c ≤ s.tick →
    (∀ r, r < j.group.length → memberOut s (ck / 512) (j.group.getD r 0) = false) →
    ∃ t c', exec .collectiveTimeout s = .next t ∧ t.colls = [] ∧ (t.eng ck x n).cmds = [c'] ∧
      (c'.verdict.map (fun f => f.code)) = some 0x0A) ∧
  (∀ m, headMember s s.ev.die = some m → m.dk = s.ev.die → m.cmd.op = 0x11 → m.cmd.flags = 0 →
    membersOf m.amp.dies m.amp.pkgs = [s.ev.die] → dieGone s s.ev.die = false → memberFaults s [m] = some [none] →
    ∃ t, exec .aeStateCommandPerform s = .next t ∧ (t.die s.ev.die).amp = some m.amp ∧
      (t.die s.ev.die).ampQ = (s.die s.ev.die).ampQ.drop 1 ∧ SameMemory s t) ∧
  (∀ (m : AmpMember) (ms l : List AmpMember) (at_ : Nat → Nat → Nat → Nat),
    let c := m.cmd
    let d := ampDone s l c
    let result (y : AmpMember) (p : Nat) : EWrite := { va := y.cmd.word 0x18, bytes := leBytes 4 p }
    let put (y : AmpMember) (v : Mem) (w : EWrite) : Mem := putWrite (at_ y.at_.core y.at_.ctx) v w
    headMember s s.ev.die = some m → 0x12 ≤ c.op → c.op ≤ 0x15 →
    ms = (membersOf m.amp.dies m.amp.pkgs).filterMap (headMember s) → ms.length = (membersOf m.amp.dies m.amp.pkgs).length →
    (∀ k ∈ membersOf m.amp.dies m.amp.pkgs, dieGone s k = false) →
    (∀ y ∈ ms, y.cmd.op = c.op ∧ y.cmd.flags = c.flags ∧ agreeing y.cmd = agreeing c ∧ y.cmd.struck = []) → memberFaults s ms = some (ms.map (fun _ => none)) →
    (Rd.mapM (readArray s) ms).res = .ok l → s.ltxs = [] → (∀ k, (s.die k).slice = []) → (l.map (·.dk)).Nodup → (d.ms.map (·.dk)).Nodup →
    (∀ y ∈ d.ms, ∀ w ∈ arrayWrites y, Placed s y.at_.core y.at_.ctx (at_ y.at_.core y.at_.ctx) w) →
    (∀ p, d.p = some p → ∀ y ∈ l, Placed s y.at_.core y.at_.ctx (at_ y.at_.core y.at_.ctx) (result y p)) →
    ∃ t, exec .aeStateCommandPerform s = .next t ∧
      t.mem = d.ms.foldl (fun v y => (arrayWrites y).foldl (put y) v)
        (match d.p with | some p => l.foldl (fun v y => put y v (result y p)) s.mem | none => s.mem) ∧
      (∀ y ∈ d.ms, (t.die y.dk).amp = some y.amp) ∧ ∀ y ∈ l, (t.die y.dk).ampQ = (s.die y.dk).ampQ.drop 1) ∧
  (∀ (l : List AmpMember) (m : AmpMember) (c : EngCmd),
    (c.op = 0x14 → ampDone s (m :: l) c = { ms := m :: l, p := some (sumRound 0 ((m :: l).flatMap (squares (conditions (c.word 0x10))))) }) ∧
    (c.op = 0x15 →
      let p := normOf (conditions (c.word 0x10)) (m :: l)
      (ampDone s (m :: l) c).p = some p ∧ (usable p = false → (ampDone s (m :: l) c).fail_ = some { code := 0x0C, kind := 7 }) ∧
      (usable p = true → ∀ (k : Nat) (y : AmpMember), (ampDone s (m :: l) c).ms[k]? = some y → ∃ z : AmpMember, (m :: l)[k]? = some z ∧ ∀ o, o < z.arr.length →
        y.arr.getD o 0 = if meets z (conditions (c.word 0x10)) o then
            mulF 0 (z.arr.getD o 0 % 2 ^ 32) (rsqF p) + mulF 0 (z.arr.getD o 0 / 2 ^ 32) (rsqF p) * 2 ^ 32
          else 0)) ∧
    (c.op = 0x12 → (∀ q ∈ gateTargets c, qubitKind (m.amp.qmap.getD q 0xC0) = 0) →
      let ts := gateTargets c
      let cs := conditions (c.word 0x18)
      (ampDone s (m :: l) c).fail_ = none ∧ ∀ (k : Nat) (y : AmpMember), (ampDone s (m :: l) c).ms[k]? = some y → ∃ z : AmpMember, (m :: l)[k]? = some z ∧
        ∀ o, o < z.arr.length → y.arr.getD o 0 = if meets z cs o then
            gateRow ((List.range (2 ^ ts.length)).map (matrixAt (s.die z.dk) (gateSlot c) ts.length
                (ts.zipIdx.map (fun t => qubitAt z o t.1 * 2 ^ t.2)).sum))
              ((List.range (2 ^ ts.length)).map (fun j => z.arr.getD (groupOffset z.amp ts o j) 0))
          else z.arr.getD o 0) ∧
    (c.op = 0x13 →
      let q := bitsOf (c.word 0x10) 0 6
      let old := m.amp.qmap.getD q 0xC0
      let b := placePos (m.amp.qmap.getD (bitsOf (c.word 0x10) 8 6) 0)
      (ampDone s (m :: l) c).fail_ = none ∧ ∀ (k : Nat) (y : AmpMember), (ampDone s (m :: l) c).ms[k]? = some y → ∃ z : AmpMember, (m :: l)[k]? = some z ∧
        y.amp.qmap = setAt (setAt z.amp.qmap q (placeByte 0 b)) (m.amp.qmap.idxOf (placeByte 0 b)) old ∧
        ∀ w, partner (m :: l) z (qubitKind old) (placePos old) = some w → ∀ o, o < z.arr.length →
          let v := memberBit z (qubitKind old) (placePos old)
          y.arr.getD o 0 = if bitsOf o b 1 = v then z.arr.getD o 0 else w.arr.getD (putBit o b v) 0)) ∧
  (∀ a, headMember s s.ev.die = none → (s.die s.ev.die).ampQ.head? = some a → ∃ t, exec .aeStateCommandPerform s = .next t ∧
    (t.die s.ev.die).ampQ = (s.die s.ev.die).ampQ.drop 1 ∧ SameMemory s t)

-- the host interface

/-- R311 to R313, R325, R328, R330, R331: what the driver's writes to BAR0 do, while the package's registers answer: enabling and disabling
the device, reading and setting the time, firmware update, a plain register, enabling rings and moving TXPROD. None of them but a disable
touches memory; a disable that holds no launch clears every queue's ENABLE.
How a queue or ring starts is log entry 74; the standby image's later judgement and the writes' effects are log entries 81 and 119. -/
def Obligations.device_events : Prop := ∀ (s : State),
  let p := s.ev.pkg
  let k := s.pkg p
  let v := s.ev.val
  let held (l : Launch) : Prop := l.pkg = p ∨ p ∈ l.pkgs
  let ring := 0x90000 + 64 * (s.ev.num % 4096)
  let tx := 0xD0000 + 0x100 * (s.ev.num % 2)
  let units := k.timeBase + (s.tick - k.timeAt) * k.pace
  let qtab := (k.regs.get 0x40 0).toNat
  s.answers p = true →
  (s.enable p = false → k.enabled = false → s.accepts p 0 = true → qtabOk s qtab p = true →
    ∃ t, exec .deviceEnable s = .next t ∧ t.enable p = true ∧ (t.pkg p).enabled = true ∧ (t.pkg p).enableErr = 0 ∧ SameMemory s t) ∧
  (s.enable p = false → k.enabled = false → s.accepts p 0 = false ∨ qtabOk s qtab p = false → ∃ t, exec .deviceEnable s = .next t ∧
    t.enable p = false ∧ (t.pkg p).enabled = false ∧ (t.pkg p).enableErr = (if s.accepts p 0 then 2 else 1) ∧ SameMemory s t) ∧
  (s.enable p = true → k.enabled = true → k.started = [] → (∀ l ∈ s.launches, l.pkg ≠ p) →
    ∃ t, exec .deviceDisable s = .next t ∧ t.enable p = false ∧ (t.pkg p).enabled = false ∧ (t.pkg p).triggers = [] ∧
      (t.pkg p).due = [] ∧ (t.pkg p).slots = [] ∧ (t.pkg p).pending = [] ∧
      (s.memWf → ∀ q, q < 32768 → (queueEntry t p q).enable = false)) ∧
  (∃ t, exec .devTimeRead s = .next t ∧ (t.pkg p).hostRead = leBytes 8 (units / 3000000000 % 2 ^ 64) ∧
    (t.pkg p).frac = BitVec.ofNat 16 (units % 3000000000 * 65536 / 3000000000) ∧ SameMemory s t) ∧
  ((∀ l ∈ s.launches, ¬ held l) → ∃ t, exec .timeSet s = .next t ∧ t.devTime p = v % 2 ^ 64 ∧ t.devFrac p = 0 ∧
    (t.pkg p).pace = k.pace ∧ SameMemory s t) ∧
  ((∃ l ∈ s.launches, held l) → exec .timeSet s = .next s) ∧
  (k.fwState = 0 ∨ k.fwState = 3 → ∃ t, exec .fwLoad s = .next t ∧ (t.pkg p).fwState = 1 ∧ (t.pkg p).fwCode = 0 ∧
    (t.pkg p).standby = none ∧ SameMemory s t) ∧
  (k.fwState = 2 → k.handover = 0 → ∃ t, exec .fwSwitch s = .next t ∧ (t.pkg p).handover = 1 ∧ SameMemory s t) ∧
  (s.ev.addr = 0x400 → ∃ t, exec .registerWrite s = .next t ∧ regWord t p 0x400 = v % 2 ^ 64 ∧ SameMemory s t ∧
    ∀ o, o ≠ 0x400 → o < 0x100000 → regWord t p o = regWord s p o) ∧
  (s.ev.addr % 8 ≠ 0 → exec .registerWrite s = .next s) ∧
  (s.accepts p 3 = true → bitsOf (regWord s p (ring + 0x20)) 63 1 = 0 → ∃ t, exec .ringEnable s = .next t ∧
    bitsOf (regWord t p (ring + 0x20)) 63 1 = 1 ∧ regWord t p (ring + 0x28) = 0 ∧ SameMemory s t) ∧
  (s.accepts p 3 = true → bitsOf (regWord s p (tx + 8)) 63 1 = 0 → ∃ t, exec .txEnable s = .next t ∧
    bitsOf (regWord t p (tx + 8)) 63 1 = 1 ∧ regWord t p (tx + 0x18) = regWord s p (tx + 0x10) ∧ SameMemory s t) ∧
  ((v % 2 ^ 32 + 2 ^ 32 - regWord s p (tx + 0x18)) % 2 ^ 32 ≤ 256 → ∃ t, exec .txprod s = .next t ∧
    regWord t p (tx + 0x10) = v % 2 ^ 32 ∧ SameMemory s t)

/-- R310, R314 to R318, R321, R323, R325, R333, R375: queues. Enabling a queue sets bit 63 of its entry and, when it was clear, starts the
queue's indices at 0; disabling takes its slot; BAR4 reads HBM and writes it, in the device block (R332, Table 15.1) only the bits of
fields that software writes; a notify ahead of the last and within the ring moves the
producer index, and one beyond the ring stops the queue; a visit accepts the next command, or stops the queue at a bad one; a due trigger
starts; ageing raises effective priorities; a queue unbinds; a frame boundary leaves no queue waiting while a slot is free, and takes up a
service request; a handover runs the new image.
That a queue starts at indices 0 is log entry 74; handover and turns are the model's choices (log entries 81 and 115). -/
def Obligations.queue_events : Prop := ∀ (s : State),
  let p := s.ev.pkg
  let k := s.pkg p
  let q := s.ev.num % 32768
  let e := qentry s p q
  let n := s.ev.val % 2 ^ 32
  let y := s.queue p q
  let others (t : State) : Prop := ∀ a, a ≠ e + 15 → Mem.rd t.mem a = Mem.rd s.mem a
  let stopped (t : State) (r err : Nat) : Prop := (queueEntry t p r).enable = false ∧
    bitsOf (Mem.nat t.mem (qentry s p r + 0x18) 8) 24 8 = err ∧ bound t p r = false
  let quiet : Prop := s.hbmWord p 0x1000080 = s.hbmWord p 0x10000A0
  let writable (a : Nat) : Byte :=
    let o := a - 0x1000000
    if a < 0x1000000 ∨ 0x1001000 ≤ a then 0xFF
    else if o < 0x80 then (if o % 32 < 0x10 then 0xFF else if o % 32 = 0x10 then 0x1F else 0)
    else if o < 0x89 ∨ (0x90 ≤ o ∧ o < 0xA0) then 0xFF
    else 0
  s.answers p = true → s.memWf →
  (∃ t, exec .queueEnable s = .next t ∧ (queueEntry t p q).enable = true ∧ others t ∧
    ((queueEntry s p q).enable = false → t.queue p q = {})) ∧
  (∃ t, exec .queueDisable s = .next t ∧ (queueEntry t p q).enable = false ∧ others t ∧
    ((queueEntry s p q).enable = true → bound t p q = false ∧ ∀ x ∈ (t.pkg p).pending, x.q ≠ q)) ∧
  (s.ev.flag = true → s.ev.addr + s.ev.bytes.length ≤ 2 ^ 39 → s.reserved (.hbm (fabric p s.ev.addr)) = false →
    ∃ t, exec .bar4WindowAccess s = .next t ∧ ∀ a, Mem.rd t.mem a =
      if fabric p s.ev.addr ≤ a ∧ a < fabric p s.ev.addr + s.ev.bytes.length then
        let m := writable (s.ev.addr + (a - fabric p s.ev.addr))
        (Mem.rd s.mem a &&& ~~~ m) ||| (s.ev.bytes.getD (a - fabric p s.ev.addr) 0 &&& m)
      else Mem.rd s.mem a) ∧
  (s.ev.flag = false → s.ev.addr + s.ev.num ≤ 2 ^ 39 → s.reserved (.hbm (fabric p s.ev.addr)) = false →
    ∃ t, exec .bar4WindowAccess s = .next t ∧ (t.pkg p).hostRead = Mem.bytes s.mem (fabric p s.ev.addr) s.ev.num ∧ SameMemory s t) ∧
  (s.ev.flag = false → s.ev.addr = 0 → s.enable p = true → (queueEntry s p q).enable = true →
    2 ^ 31 ≤ (y.prod + 2 ^ 32 - n) % 2 ^ 32 →
    if (n + 2 ^ 32 - y.cons) % 2 ^ 32 ≤ 2 ^ (queueEntry s p q).logSize then
      ∃ t, exec .notify s = .next t ∧ t.queue p q = { y with prod := n } ∧ SameMemory s t
    else ∃ t, exec .notify s = .next t ∧ t.queue p q = y ∧ stopped t q 1) ∧
  (s.ev.flag = false → s.ev.addr ≠ 0 → exec .notify s = .next s) ∧
  (s.ev.flag = true → if s.ev.idx = 0 then exec .notify s = .next s
    else ∃ t, exec .notify s = .next t ∧ (t.pkg p).hostRead = zeros s.ev.idx ∧ SameMemory s t) ∧
  (∀ r b,
    let s1 := s.modPkg p (fun k => { k with visited := s.ev.num :: k.visited })
    let c : QCmd := { q := r, pasid := (queueEntry s1 p r).pasid, words := (List.range 8).map (fun i => BitVec.ofNat 64 (fieldAt b (8 * i) 8)) }
    let z := s1.queue p r
    serving s p = true → k.slots.find s.ev.num = some r → s.ev.num ∉ k.visited → (queueEntry s p r).enable = true →
    slotTurn s p s.ev.num = true → z.cons ≠ z.prod →
    procRead s1 p (queueEntry s1 p r).pasid ((queueEntry s1 p r).ring + 64 * (z.cons % 2 ^ (queueEntry s1 p r).logSize)) 64 = .ok b →
    (badCommand c = false → condition s1 p c = some true →
      ∃ t, exec .pollingSlotVisit s = .next t ∧ (t.pkg p).started = k.started ++ [c] ∧
        t.queue p r = { z with cons := (z.cons + 1) % 2 ^ 32 }) ∧
    (badCommand c = false → condition s1 p c = some false → c.trg = true → trigRoom s1 p r = true →
      ∃ t, exec .pollingSlotVisit s = .next t ∧ (t.pkg p).triggers = k.triggers ++ [c] ∧ (t.pkg p).started = k.started ∧
        t.queue p r = { z with cons := (z.cons + 1) % 2 ^ 32 }) ∧
    (badCommand c = true → ∃ t, exec .pollingSlotVisit s = .next t ∧ (t.pkg p).started = k.started ∧ t.queue p r = z ∧
      stopped t r 2)) ∧
  (∀ c l, serving s p = true → k.due = (c, true) :: l → ∃ t, exec .queueTriggerFire s = .next t ∧
    (t.pkg p).due = l ∧ (t.pkg p).started = k.started ++ [c] ∧ SameMemory s t) ∧
  (∃ t, exec .agingTick s = .next t ∧ SameMemory s t ∧ ∀ x, x ∈ (t.pkg p).pending ↔ ∃ o ∈ k.pending,
    let d := (s.tick - o.aged) / agingTicks s p
    x = { o with eff := max o.eff (min (queueEntry s p o.q).ceil (o.eff + d)), aged := o.aged + d * agingTicks s p }) ∧
  (unbindDue s p s.ev.num = true → ∃ t, exec .queueUnbind s = .next t ∧ bound t p s.ev.num = false ∧ SameMemory s t) ∧
  (frameDue s p = true → k.handover = 0 → s.enable p = true → ∃ t, exec .frameBoundary s = .next t ∧
    (t.pkg p).frameAt = s.tick / Config.frameTicks * Config.frameTicks ∧ (t.pkg p).visited = [] ∧
    (∀ m r, k.slots.find m = some r → (t.pkg p).slots.find m = some r) ∧
    ((t.pkg p).pending ≠ [] → ∀ m, m < Config.activeSlots → ((t.pkg p).slots.find m).isSome = true) ∧
    (k.svc = none → ¬ quiet → knownKind (s.hbmWord p 0x1000088 % 256) = true → k.svcEarly = false →
      let args := (s.hbmWord p 0x1000090, s.hbmWord p 0x1000098)
      SameMemory s t ∧
        (t.pkg p).svc = some { seq := s.hbmWord p 0x1000080, kind := s.hbmWord p 0x1000088 % 256, args := some args })) ∧
  (frameDue s p = true → k.handover = 1 → ∃ t, exec .frameBoundary s = .next t ∧ (t.pkg p).handover = 2 ∧ SameMemory s t) ∧
  (frameDue s p = true → 2 ≤ k.handover → ∃ t, exec .firmwareHandover s = .next t ∧ (t.pkg p).handover = 0 ∧
    (t.pkg p).fwHalf = !k.fwHalf ∧ (t.pkg p).fwVer = some k.fwNext ∧ (t.pkg p).fwState = 0 ∧
    (t.pkg p).fwImage = k.standby.getD 0 ∧ (t.pkg p).standby = some k.fwImage ∧ (s.enable p = true → quiet → SameMemory s t))

/-- R219, R317, R319, R320, R322, Table 14.6: an accepted command whose turn has come leaves the list of those to start. NOP does nothing more
but its SIG write; WRITE writes its 8 bytes; LAUNCH starts a launch that the front end finds well-formed; ABORT of a launch that no context
carries ends it; REQUEUE puts the record's slot at the end of the die's ready list.
Whose turn it is among accepted commands is log entry 115, the SIG write log entry 76; the package of a REQUEUE's die is log entry 127. -/
def Obligations.command_events : Prop := ∀ (s : State) (c : QCmd),
  let p := s.ev.pkg
  let s1 := s.modPkg p (fun y => { y with started := y.started.eraseIdx s.ev.idx })
  let silent : Prop := bitsOf (c.word 0) 10 1 = 0
  let lands (va fa : Nat) : Prop := va % 8 = 0 ∧ devWaits s1 p c.pasid = false ∧ ∃ g : Target, reachProc s1 p c.pasid va .write = .ok g ∧
    g.place = .hbm fa ∧ g.race = 0
  s.answers p = true → s.enable p = true →
  (startable s p s.ev.idx 0 = some c → exec .nopCommand s = .next (sigWrite s1 p c) ∧ (silent → exec .nopCommand s = .next s1) ∧
    (∀ fa, ¬ silent → lands (c.word 3) fa → ∃ t, exec .nopCommand s = .next t ∧ t.mem = Mem.put s.mem fa (leBytes 8 (c.word 4)))) ∧
  (startable s p s.ev.idx 2 = some c →
    exec .write s = .next (sigWrite (procWrite s1 p c.pasid (c.word 5) (leBytes 8 (c.word 6)) (some c.q)) p c) ∧
    ∀ fa, silent → lands (c.word 5) fa → ∃ t, exec .write s = .next t ∧ t.mem = Mem.put s.mem fa (leBytes 8 (c.word 6))) ∧
  (∀ l, startable s p s.ev.idx 1 = some c → frontEndNext s p c = true → launchWaits s p c = false →
    front s1 p (queueEntry s1 p c.q).prio c = .go l → s.launch l.id = none → l.finished ≠ l.n →
    exec .launch s = .next (({ s1 with launches := s.launches ++ [l], nextLaunch := s.nextLaunch + 1 } : State).modPkg p (fun y =>
      { y with rrFront := y.rrFront.set (queueEntry s p c.q).prio (slotKey s p c.q) }))) ∧
  (∀ l, startable s p s.ev.idx 3 = some c → l ∈ s.launches → (∀ m ∈ s.launches, m.id = l.id → m = l) →
    s.launches.find? (fun l => l.pkg == p && l.pasid == c.pasid && l.desc == c.word 5) = some l → members s l.id = [] → s.ltxs = [] →
    (∀ st, l.phase ≠ .aborting st) → ∃ t, exec .abort s = .next t ∧ t.launch l.id = none) ∧
  (startable s p s.ev.idx 3 = some c → silent →
    s.launches.find? (fun l => l.pkg == p && l.pasid == c.pasid && l.desc == c.word 5) = none → exec .abort s = .next s1) ∧
  (∀ l j w, startable s p s.ev.idx 4 = some c → silent → readWaits s p c.pasid (c.word 5) 8 = false →
    requeueable s1 p (4 * p + c.word 6 % 4) c = some (l, j, w) →
    s.launch l.id = some l → ∃ t m, exec .requeue s = .next t ∧ t.launch l.id = some m ∧
      m.readyQ.get (4 * p + c.word 6 % 4) [] = l.readyQ.get (4 * p + c.word 6 % 4) [] ++ [(j, s.free)])

/-- R326 to R331, R258: stream ports. A frame with a bad FCS is counted; a long one or a pause frame is ignored; a good one that no rule takes,
or whose ring does not run, is counted and dropped; one for a full ring is counted there; one for a ring with room has its payload and record
written and waits to be published; one of the port and the rule that PTP_CTRL names reaches the PTP clock; publishing moves FRAMES; a transmit descriptor is finished with its status, and its frame sent.
The order of the checks and which frames are counted are the model's choices (log entries 79, 116 and 117). -/
def Obligations.port_events : Prop := ∀ (s : State),
  let p := s.ev.pkg
  let o := s.ev.num
  let f := s.ev.bytes
  let tel := portTel o
  let s1 := s.count p tel
  let inService : Prop := ((s.pkg p).sports.get o {}).out = false
  let good : Prop := inService ∧ s.ev.flag = true
  let taken : Prop := good ∧ f.length ≤ 9216 ∧ isPause f = false
  s.answers p = true → o < 2 →
  (inService → s.ev.flag = false → exec .frameReceived s = .next (s.count p (tel + 8))) ∧
  (good → 9216 < f.length ∨ isPause f = true → exec .frameReceived s = .next s) ∧
  (taken → matchRule (s.pkg p) o f = none → exec .frameReceived s = .next (s1.count p (tel + 0x10))) ∧
  (∀ r b, taken → matchRule (s.pkg p) o f = some r →
    let w := ((s.pkg p).rules.get (0x10000 + 128 * r + 0x40) 0).toNat
    let g := w % 4096
    let y : RxFrame := { port := o, rule := r, ring := g, at_ := s.tick, stamp := s.timeUnits p, bytes := f }
    let c := ringWord s p g 0x20
    let n := nextFrame s p g
    let e := 2 ^ (c % 32)
    let slot := 2 ^ bitsOf c 8 4
    let pay := (f.drop (payloadAt f)).take slot
    let at1 := ringWord s p g 0 + n % e * slot
    let at2 := ringWord s p g 8 + 64 * (n % e)
    let ptp := regWord s p 0x70
    let s2 : State := if bitsOf ptp 0 1 = 1 ∧ bitsOf ptp 1 1 = o ∧ bitsOf ptp 16 12 = r then s1.modPkg p (fun y => { y with ptpSeen := true })
      else s1
    let u := (s2.devWrite p (ringPasid s p g) at1 pay).devWrite p (ringPasid s p g) at2 (frameRecord s p n slot y)
    let runs : Prop := (s.pkg p).enabled = true ∧ bitsOf w 25 1 = 0 ∧ ringOn s p g = true
    (¬ runs → exec .frameReceived s = .next (s2.count p (tel + 0x10))) ∧
    (runs → (s.pkg p).rx = [] → rxWaits s2 p y = false → procRead s2 p (ringPasid s p g) (ringWord s p g 0x18) 8 = .ok b →
      (e ≤ n - leNat b → ringWord s p g 0x30 + 1 < 2 ^ 64 → ∃ t, exec .frameReceived s = .next t ∧
        ringWord t p g 0x30 = ringWord s p g 0x30 + 1 ∧ (t.pkg p).publish = (s.pkg p).publish ∧ SameMemory s t) ∧
      (n - leNat b < e → writeFaults s2 p (ringPasid s p g) at1 pay.length = false → writeFaults s2 p (ringPasid s p g) at2 64 = false →
        ∃ t, exec .frameReceived s = .next t ∧ t.mem = u.mem ∧ (t.pkg p).publish = (s.pkg p).publish ++ [{ ring := g, num := n, port := o }] ∧
          ringWord t p g 0x28 = ringWord s p g 0x28))) ∧
  (∀ y, (s.pkg p).rx = [] → (s.pkg p).publish.find? (fun y => y.ring == o) = some y → y.num + 1 < 2 ^ 64 → ringHeld s p o = false →
    writeWaits s p (ringPasid s p o) (ringWord s p o 0x10) 8 = false →
    ∃ t, exec .countWordPublish s = .next t ∧ ringWord t p o 0x28 = y.num + 1 ∧ (t.pkg p).publish = (s.pkg p).publish.erase y ∧
      t.mem = (s.devWrite p (ringPasid s p o) (ringWord s p o 0x10) (leBytes 8 (y.num + 1))).mem) ∧
  (∀ st d,
    let b := 0xD0000 + 0x100 * o
    let ctl := regWord s p (b + 8)
    let cons := regWord s p (b + 0x18)
    let at_ := regWord s p b + 16 * (cons % 256)
    bitsOf ctl 63 1 = 1 → cons ≠ regWord s p (b + 0x10) → txWaits s p (bitsOf ctl 32 20) at_ = false →
    txOutcome s p o (bitsOf ctl 32 20) (ownRead s p (bitsOf ctl 32 20) at_ 16) = (st, d) →
    let u := s.devWrite p (bitsOf ctl 32 20) (at_ + 10) (leBytes 2 st)
    ∃ t, exec .txFrameSend s = .next t ∧ t.mem = u.mem ∧ regWord t p (b + 0x18) = (cons + 1) % 2 ^ 32 ∧
      (t.pkg p).sent = d.toList.map (fun f => (o, f)) ++ (s.pkg p).sent) ∧
  (inService → ∀ pasid b, let n := fieldAt b 8 2
    (n = 0 ∨ 9216 < n → txOutcome s p o pasid (some b) = (3, none)) ∧
    (n ≠ 0 → n ≤ 9216 → ∀ d, ownRead s p pasid (fieldAt b 0 8) n = some d →
      txOutcome s p o pasid (some b) = (1, some (d ++ zeros (60 - d.length)))))

-- service requests and what happens to the machine

/-- R333, R338, R348, R357, R358, R360, R367 to R369, R372: service requests in hand. Finishing one writes STATUS and DONE. SHOOTDOWN takes the
named translations out of every micro-TLB and die TLB of the package; PREEMPT_CORES and PREEMPT_LAUNCH pre-empt what they name and finish when
nothing is left; REOPEN opens cores; PORT_OUT, PORT_IN and PORT_SPARE_LANE set their port and log it, PORT_OUT of a busy Otcor port once it is
idle, and of a stream port, which takes no further frame meanwhile, once the frames that it has delivered are published; SCRUB sets the period; ATTEST uses one leaf and writes the report.
When a request finishes and what it writes rest on log entries 114 and 119. -/
def Obligations.service_events : Prop := ∀ (s : State) (v : Svc),
  let p := s.ev.pkg
  let k := s.pkg p
  let a := svcArg1 s p
  let b := svcArg2 s p
  let starts (n : Nat) : Prop := v.kind = n ∧ v.begun = none
  let saved : Prop := v.left = [] ∧ ∀ w ∈ s.devHeld, w.pkg ≠ p
  let ended (n : Nat) : Prop := v.kind = n ∧ v.begun ≠ none
  let finished (t : State) : Prop := (t.pkg p).svc = none
  let logs (t : State) (n what with_ : Nat) : Prop := (t.pkg p).repairs = k.repairs ++ [repairRecord s p n what with_ 0]
  s.answers p = true → k.svc = some v → k.handover < 2 →
  (∀ st, s.memWf → st < 2 ^ 64 → v.seq < 2 ^ 64 → let t := finishSvc s p st
    finished t ∧ t.hbmWord p 0x10000A8 = st ∧ t.hbmWord p 0x10000A0 = v.seq) ∧
  (starts 1 → a < 2 ^ 20 → b = 2 ^ 64 - 1 ∨ b % 65536 = 0 → ∃ t, exec .shootdown s = .next t ∧ SameMemory s t ∧
    (t.pkg p).svc = some { v with begun := some s.tick, left := [], pages := oldHomes s p a b } ∧
    (∀ ck, pkgOf ck = p → ∀ y ∈ (t.core ck).tlb, namedEntry a b y = false) ∧
    (∀ dk, diePkg dk = p → ∀ y ∈ (t.die dk).tlbAll, namedEntry a b y = false) ∧ ∀ ck, pkgOf ck ≠ p → t.core ck = s.core ck) ∧
  (ended 1 → exec .shootdown s = .next (if pagesQuiet s p v then finishSvc s p 0 else s)) ∧
  (∀ l, starts 2 → patternCores s p a = some l →
    exec .preemptCores s = .next (preemptAll (if b % 2 = 1 then closeCores s l true else s) p (residentsOf s l)) ∧
    ∀ ck ∈ l, ((closeCores s l true).core ck).closed = true) ∧
  (ended 2 → saved → exec .preemptCores s = .next (finishSvc s p 0)) ∧
  (∀ l, starts 3 → launchAt s p a = some l → exec .preemptLaunch s =
    .next (preemptAll (s.modLaunch l.id (fun y => { y with frozen := true })) p (members s l.id))) ∧
  (∀ l, ended 3 → saved → launchAt s p a = some l → exec .preemptLaunch s =
    .next (finishSvc (s.modLaunch l.id (fun y => { y with frozen := false })) p 0)) ∧
  (starts 3 → launchAt s p a = none → exec .preemptLaunch s = .next (finishSvc s p 2)) ∧
  (∀ l, starts 4 → patternCores s p a = some l → ∃ t, exec .reopen s = .next t ∧ finished t ∧
    ∀ ck ∈ l, (t.core ck).closed = false) ∧
  (∀ stream n lane, v.kind = 12 → logRoom s p = true →
    (portRequest s p = some (stream, n, 2, lane) →
      (if stream then ∀ y ∈ k.publish, y.port ≠ n else portIdle s p n (v.begun.getD s.tick) = true) →
      ∃ t, exec .portOut s = .next t ∧ finished t ∧ logs t 7 (resourceOf stream n) 0 ∧
      (if stream then ((t.pkg p).sports.get n {}).out = true else ((t.pkg p).ports.get n {}).out = true)) ∧
    (portRequest s p = some (stream, n, 2, lane) → v.begun = none →
      (if stream then ∃ y ∈ k.publish, y.port = n else portIdle s p n s.tick = false) →
      ∃ t, exec .portOut s = .next t ∧ (t.pkg p).svc = some { v with begun := some s.tick, left := [], pages := [] } ∧
      (if stream then ((t.pkg p).sports.get n {}).out = true ∧ (t.pkg p).publish = k.publish
       else ((t.pkg p).ports.get n {}).closing = true ∧ ((t.pkg p).ports.get n {}).out = (k.ports.get n {}).out)) ∧
    (portRequest s p = some (stream, n, 4, lane) → v.begun = none →
      ∃ t, exec .portIn s = .next t ∧ finished t ∧ logs t 8 (resourceOf stream n) 0 ∧
      (if stream then ((t.pkg p).sports.get n {}).out = false
        else ((t.pkg p).ports.get n {}).out = false ∧ ((t.pkg p).ports.get n {}).closing = false)) ∧
    (portRequest s p = some (stream, n, 1, lane) → v.begun = none → (k.ports.get n {}).spare = none →
      ∃ t, exec .portSpareLane s = .next t ∧ finished t ∧ logs t 6 n lane ∧ ((t.pkg p).ports.get n {}).spare = some lane)) ∧
  (starts 13 → 3600 ≤ a → a ≤ 2592000 → b = 0 → ∃ t, exec .scrub s = .next t ∧ finished t ∧ (t.pkg p).scrub = a) ∧
  (let r := report s p k.leaf (Mem.bytes s.mem (fabric p a) 32)
   starts 15 → a + 32 ≤ 2 ^ 39 → b + 8192 ≤ 2 ^ 39 → b % 64 = 0 → k.leaf < 2 ^ 40 → s.reserved (.hbm (fabric p a)) = false →
    s.reserved (.hbm (fabric p b)) = false → ∃ t, exec .attest s = .next t ∧ finished t ∧ (t.pkg p).leaf = k.leaf + 1 ∧
      (s.memWf → b + r.length ≤ 0x10000A0 ∨ 0x10000B0 ≤ b → Mem.bytes t.mem (fabric p b) r.length = r))

/-- R352 to R356, R369: requests that take parts out of service. CORE_OUT retires a closed, empty core and returns its chunks; SPARE_IN brings a
good spare in under the number, closed and cleared, or, when its self-test fails, records it as bad; DIE_OUT pre-empts and closes the die's
cores, then retires the die and its cores, losing its HBM unless it is kept, and finishes once the change is known, or, when the log has no
room left for its record, finishes with STATUS 1 and opens the cores that it had closed; BANK_SPARE uses a spare
bank of the stack. Each appends its record to the repair log.
The steps of CORE_OUT, SPARE_IN and DIE_OUT rest on log entries 82, 83 and 119. -/
def Obligations.out_of_service_events : Prop := ∀ (s : State) (v : Svc),
  let p := s.ev.pkg
  let k := s.pkg p
  let a := svcArg1 s p
  let b := svcArg2 s p
  let ck := 512 * p + a % 512
  let dk := 4 * p + a % 4
  let starts (n : Nat) : Prop := v.kind = n ∧ v.begun = none
  let begun (t : State) : Prop := (t.pkg p).svc = some { v with begun := some s.tick, left := [], pages := [] }
  let finished (t : State) : Prop := (t.pkg p).svc = none
  let logs (t : State) (n what with_ die : Nat) : Prop := (t.pkg p).repairs = k.repairs ++ [repairRecord s p n what with_ die]
  s.answers p = true → k.svc = some v → k.handover < 2 →
  (logRoom s p = true →
  (starts 8 → a < 512 → b = 0 → (s.core ck).closed = true → residents (s.core ck) = [] → ∃ t, exec .coreOut s = .next t ∧ begun t ∧
    ck ∈ (t.pkg p).retCores ∧ a ∈ (t.pkg p).unmapped ∧ (t.core ck).chunks = [] ∧ logs t 1 a 0 0) ∧
  (starts 9 → a < 512 → ck ∈ k.retCores → dieOf ck ∉ k.retDies → spareFree k (a / 128) b = true →
    ∃ t, exec .spareIn s = .next t ∧ (Config.freeSelfTest s.free = true → begun t ∧ ck ∉ (t.pkg p).retCores ∧
      (t.pkg p).physOf.find a = some b ∧ (t.core ck).closed = true ∧ (t.core ck).ctxs = [] ∧ (t.core ck).spad = [] ∧
      (t.core ck).full = [] ∧ logs t 2 a b 0) ∧
    (Config.freeSelfTest s.free = false → finished t ∧ 136 * (a / 128) + b ∈ (t.pkg p).badPhys ∧ logs t 3 (136 * (a / 128) + b) 0 0)) ∧
  (starts 10 → a < 4 → b < 2 → (∀ d ∈ k.retDies, diePkg d ≠ p) →
    exec .dieOut s = .next ((preemptAll (closeCores s (dieCores dk) true) p (residentsOf s (dieCores dk))).modPkg p (fun y =>
      { y with svc := y.svc.map (fun w => { w with closed := (dieCores dk).filter (fun c => !(s.core c).closed) }) }))) ∧
  (v.kind = 10 → v.begun ≠ none → v.left = [] → (s.die dk).out = false → ∃ t, exec .dieOut s = .next t ∧ (t.die dk).out = true ∧
    dk ∈ (t.pkg p).retDies ∧ (∀ c, dieOf c = dk → c ∈ (t.pkg p).retCores) ∧ logs t 9 (a % 4) (b % 2) 0 ∧
    (b % 2 = 0 → ∀ x, x < 2 ^ 37 → Mem.rd t.mem (fabric p (a % 4 * 2 ^ 37) + x) = 0)) ∧
  (v.kind = 10 → v.begun ≠ none → v.left = [] → (s.die dk).out = true → mapSettled s p = true →
    exec .dieOut s = .next (finishSvc s p 0)) ∧
  (let bk := 4 * p + a / 2 ^ 37
   let stack := bitsOf a 12 1
   starts 11 → a < 2 ^ 39 → b = 0 → (s.die bk).hbmOut = false → (s.die bk).bankSpares.get stack 0 < 2 →
    ∃ t, exec .bankSpare s = .next t ∧ finished t ∧ (t.die bk).bankSpares.get stack 0 = (s.die bk).bankSpares.get stack 0 + 1 ∧
      logs t 5 (bankOf a) stack (bk % 4))) ∧
  (logRoom s p = false → v.kind = 10 → v.begun ≠ none → v.left = [] → (s.die dk).out = false → ∃ t, exec .dieOut s = .next t ∧ finished t ∧
    (s.memWf → t.hbmWord p 0x10000A8 = 1) ∧ (t.pkg p).repairs = k.repairs ∧ (t.die dk).out = false ∧
    ∀ c ∈ v.closed, (t.core c).closed = false)

/-- R336, R352, R356, R357, R359, R360, R362, R363, R365, R367, R369, R373: what happens to the machine. A change of the retirement map is
received; a poisoned instruction word is rewritten; a row is spared; a scrub marks what it finds; a failed lane is replaced, or its port goes;
droop drops pulses, heat throttles and trips, and DEV_TIME stands with the clocks; a reset keeps what is non-volatile, applies the repair log, and holds the package in recovery when
its image fails; lost power loses HBM; packages leave and come back; the management target takes an address and an offset and reads,
and a read that goes on inside a register goes on with the value latched at its first byte.
The clauses on repairs, heat, reset and management rest on log entries 84, 108, 112 and 113. -/
def Obligations.machine_events : Prop := ∀ (s : State),
  let p := s.ev.pkg
  let k := s.pkg p
  let ck := s.ev.core
  let dk := s.ev.die
  let dp := diePkg dk
  (∀ m, s.reaches s.ev.num p = true → (s.pkg s.ev.num).mapSend.find? (fun m => m.1 == p) = some m →
    ∃ t, exec .retirementMapUpdate s = .next t ∧ (t.pkg s.ev.num).mapSend = (s.pkg s.ev.num).mapSend.erase m ∧ SameMemory s t ∧
      (m.2.2.1 = false → (m.2.1 ∈ (t.pkg p).retCores ↔ m.2.2.2 = true)) ∧ (m.2.2.1 = true → (m.2.1 ∈ (t.pkg p).retDies ↔ m.2.2.2 = true))) ∧
  (∀ w, ((s.core ck).im.get s.ev.addr {}).poisoned = true → imageWordAt s (s.core ck) s.ev.addr = some w →
    ∃ t, exec .imPoisonRepair s = .next t ∧ (t.core ck).im.get s.ev.addr {} = { bits := w.1, pool := w.2 } ∧
      s.ev.addr ∉ (t.core ck).ahead ∧ SameMemory s t) ∧
  (let bank := s.ev.idx / 2 ^ 20
   4 ≤ (s.die dk).rowErr.get s.ev.idx 0 → (s.die dk).rowSpares.get bank 0 < 8 → logRoom s dp = true →
    ∃ t, exec .rowSpare s = .next t ∧ (t.die dk).rowSpares.get bank 0 = (s.die dk).rowSpares.get bank 0 + 1 ∧
      (t.die dk).rowErr.find s.ev.idx = none ∧ (t.pkg dp).repairs = (s.pkg dp).repairs ++ [repairRecord s dp 4 s.ev.idx 0 (dk % 4)] ∧
      SameMemory s t) ∧
  (s.answers dp = true → (s.die dk).hbmOut = false → s.ev.flag = false →
    let a := s.ev.addr % 2 ^ 37
    (s.ev.num = 1 → ∃ t, exec .patrolScrub s = .next t ∧ SameMemory s t ∧ t.poison = s.poison ∧
      (t.die dk).rowErr.get (Config.freeRow a) 0 = (s.die dk).rowErr.get (Config.freeRow a) 0 + 1) ∧
    (s.ev.num = 2 → ∃ t, exec .patrolScrub s = .next t ∧ 4 ≤ (t.die dk).rowErr.get (Config.freeRow a) 0 ∧ SameMemory s t ∧
      fabric dp (dk % 4 * 2 ^ 37 + a) / 128 ∈ t.poison)) ∧
  (s.answers (pkgOf ck) = true → s.ev.flag = false →
    (s.ev.num = 10 → ∃ t, exec .patrolScrub s = .next t ∧ s.ev.addr % 2 ^ 18 ∈ (t.core ck).spadUE ∧ SameMemory s t) ∧
    (s.ev.num = 11 → ∃ t, exec .patrolScrub s = .next t ∧ (t.core ck).regBad (s.ev.addr % 4096) = true ∧ SameMemory s t)) ∧
  (let n := s.ev.num % 32
   let o := k.ports.get n {}
   o.out = false → s.answers p = true → logRoom s p = true → ∃ t, exec .laneFault s = .next t ∧ SameMemory s t ∧
    (o.spare = none → ((t.pkg p).ports.get n {}).spare = some (s.ev.idx % 8) ∧ ((t.pkg p).ports.get n {}).out = false) ∧
    (o.spare ≠ none → ((t.pkg p).ports.get n {}).out = true)) ∧
  (s.answers (pkgOf ck) = true → (∀ c ∈ residents (s.core ck), s.edgeOf ck c.2 < (s.core ck).pulse) →
    ∃ t, exec .droopResponse s = .next t ∧ SameMemory s t ∧ (t.core ck).cycle = (s.core ck).cycle ∧
      (t.core ck).lag = (s.core ck).lag + s.ev.num ∧
      (t.pkg (pkgOf ck)).tel.get (coreTel s ck 0x38) 0 = (s.pkg (pkgOf ck)).tel.get (coreTel s ck 0x38) 0 + s.ev.num) ∧
  (s.answers p = true → ∃ t, exec .thermalThrottle s = .next t ∧ SameMemory s t ∧ (t.pkg p).throttle.find s.ev.num =
    if s.ev.val < 100 then none else if s.ev.val < 108 then some 2 else some 3) ∧
  ((s.pkg dp).running = true → ∃ t, exec .thermalTrip s = .next t ∧ (t.pkg dp).running = false ∧ (t.pkg dp).tripped = true ∧
    (t.pkg dp).pace = 0 ∧ t.devTime dp = s.devTime dp ∧ ((∀ y ∈ s.ltxs, y.state = 0 → ∀ r ∈ y.ranges, diePkg (homeOf r.1) ≠ dp) → SameMemory s t)) ∧
  (s.pkgs.find p = some k → s.ev.flag = false → (∀ l ∈ s.launches, l.pkg ≠ p) →
    (∀ y ∈ s.ltxs, y.state = 0 → ∀ r ∈ y.ranges, diePkg (homeOf r.1) ≠ p) →
    ∃ t, exec .packageReset s = .next t ∧ (∀ c, pkgOf c = p → t.core c = {}) ∧ t.mem = s.mem ∧ (t.pkg p).repairs = k.repairs ∧
      (Config.freeVerdict s.free ≠ 0 →
        t.pkg p = { keptOver s p k with running := false, recovery := (Config.freeVerdict s.free).toNat }) ∧
      (Config.freeVerdict s.free = 0 → (t.pkg p).running = true ∧ (t.pkg p).recovery = 0 ∧ (t.pkg p).enabled = false) ∧
      (Config.freeVerdict s.free = 0 → k.reachable = false → t.pkg p = bootPkg s p k k.repairs.length)) ∧
  (s.pkgs.find p = some k → ∃ t, exec .powerLoss s = .next t ∧ (t.pkg p).running = false ∧ (t.pkg p).pace = 0 ∧
    (t.pkg p).leaf = (if s.ev.flag then k.leaf + 1 else k.leaf) ∧ ∀ a, a < 2 ^ 39 → Mem.rd t.mem (fabric p a) = 0) ∧
  (s.pkgs.find p = some k → k.reachable = true → ∃ t, exec .packageUnreachable s = .next t ∧ (t.pkg p).reachable = false) ∧
  (s.pkgs.find p = some k → k.reachable = false → ∃ t, exec .packageRejoins s = .next t ∧ (t.pkg p).reachable = true ∧
    (t.pkg p).mapSend = [] ∧ SameMemory s t) ∧
  (managed s p = true → ∃ t, exec .i3cDynamicAddress s = .next t ∧ (t.pkg p).i3cAddr = some (s.ev.val % 128) ∧ SameMemory s t) ∧
  (addressed s p = true →
    (∃ t, exec .i3cPrivateWrite s = .next t ∧ (t.pkg p).i3cOff = s.ev.val % 2 ^ 24 ∧ SameMemory s t) ∧
    (let n := min s.ev.num 256
     ∃ t, exec .i3cPrivateRead s = .next t ∧ (t.pkg p).i3cOff = (k.i3cOff + n) % 2 ^ 24 ∧ (t.pkg p).i3cRead.length = n ∧ SameMemory s t ∧
      (0x68 ≤ k.i3cOff ∨ k.i3cOff + n ≤ 0x60 → (t.pkg p).i3cRead = managedBytes s p k.i3cOff n) ∧
      ∀ v i, k.i3cLatch = some (k.i3cOff / 8 * 8, v) → k.i3cOff % 8 ≠ 0 → i < n → k.i3cOff % 8 + i < 8 →
        (t.pkg p).i3cRead.getD i 0 = (leBytes 8 v).getD (k.i3cOff % 8 + i) 0))

-- the whole machine

/-- R14, R36, R84, R85, R125: traps before anything is performed. A bundle that fails a check traps with the first cause in the order of R85, and a
form with an ill-formed field, such as the destination s31, is an illegal bundle; an address above 2^56 raises TRANSLATION, a misaligned one
ALIGNMENT.
That a poisoned index of a bundle that does not execute gives IMEM_UE is log entry 33, the order against checkpoints log entry 24, and the
rest in a trap log entry 20. -/
def Obligations.traps_at_issue : Prop :=
  (∀ (s : State) (x n : Nat) (w : ImWord),
    let ck := s.ev.core
    let s1 := s.modCore ck (fun c => { c with selCtx := x, selHeld := n })
    let c := s1.ctx ck x
    let u := openFrame s1 ck x w.bits
    let cause := issueCause u ck x w (executes (hdrOf w.bits) u.frame.old)
    select s ck = some (x, n) → c.issueAt ≤ (s.core ck).cycle → c.ckOwed = 0 → c.deferred = 0 → c.drain = false →
    fetch s1 ck x = some w → cause ≠ 0 → ∃ t, exec .bundleIssue s = .next t ∧ t.frame.gone = true ∧ t.frame.todo = [] ∧
      ∃ t', Traps (if w.poisoned then u.countCore ck 0x10 else u) cause 0 t' ∧ t = { t' with frame := t.frame }) ∧
  (∀ (s : State) (ck x : Nat) (w : ImWord) (ex : Bool),
    let cause := issueCause s ck x w ex
    let imem : Prop := w.poisoned = true ∨ indexPoisoned s ck w.bits = true
    let illegal : Prop := illegalStatic s ck x w.bits = true ∨ ex = true ∧ illegalDynamic s w.bits = true
    (imem → cause = 0x0D) ∧ (¬ imem → w.pool = true → cause = 0x02) ∧ (¬ imem → w.pool = false → illegal → cause = 0x01) ∧
    (¬ imem → w.pool = false → ¬ illegal → ex = true → bundleResource s ck x w.bits = true → cause = 0x04) ∧
    (¬ imem → w.pool = false → ¬ illegal → ex = true → bundleResource s ck x w.bits = false → bundleSchedule s ck x w.bits = true →
      cause = 0x03) ∧
    (ex = false → cause = 0 ∨ cause = 0x0D ∨ cause = 0x02 ∨ cause = 0x01) ∧
    (∀ p i, p ∈ slotOrder → emptyAt w.bits p = false → formAt w.bits p = some i → i.wf = false → illegal)) ∧
  (∀ (a b : BitVec 5) (i : BitVec 16), (Instr.add 31 a b).wf = false ∧ (Instr.addi 31 a i).wf = false ∧ (Instr.li 31 i).wf = false ∧
    ∀ x r y sc o, (Instr.ldd 31 a x r y sc o).wf = false) ∧
  ∀ (s : State) (d b x sc : BitVec 5) (r : BitVec 2) (y : BitVec 1),
    let ea := s.eaX b x
    let stops (i : Instr) (n : Nat) : Prop :=
      (2 ^ 56 ≤ ea → ∃ t, exec i s = .next t ∧ Traps s 0x06 0 t) ∧ (ea < 2 ^ 56 → ea % n ≠ 0 → ∃ t, exec i s = .next t ∧ Traps s 0x08 0 t)
    stops (.ldb d b x r y sc 0) 1 ∧ stops (.ldbn d b x r y sc 0) 1 ∧ stops (.ldh d b x r y sc 0) 2 ∧ stops (.ldhn d b x r y sc 0) 2 ∧
    stops (.ldw d b x r y sc 0) 4 ∧ stops (.ldwn d b x r y sc 0) 4 ∧ stops (.ldd d b x r y sc 0) 8 ∧ stops (.stb d b x r sc 0) 1 ∧
    stops (.sth d b x r sc 0) 2 ∧ stops (.stw d b x r sc 0) 4 ∧ stops (.std d b x r sc 0) 8

/-- R8: bytes written to a memory in canonical form are read back, every other byte reads as before, and the form is kept; a number
written as bytes reads back, least significant byte first; two memories in canonical form that read alike are equal.
The canonical form is the model's choice (log entry 2). -/
def Obligations.memory_reads_back : Prop := ∀ (m : Mem), Memory.wf m = true →
  (∀ a bs, Memory.wf (Mem.put m a bs) = true ∧
    ∀ x, Mem.rd (Mem.put m a bs) x = if a ≤ x ∧ x < a + bs.length then bs.getD (x - a) 0 else Mem.rd m x) ∧
  (∀ a n v, v < 2 ^ (8 * n) → Mem.nat (Mem.put m a (leBytes n v)) a n = v) ∧
  ∀ m', Memory.wf m' = true → (∀ a, Mem.rd m a = Mem.rd m' a) → m = m'

/-- R70 to R82: decoding the word that the encoder gives a well-formed instruction, in the instruction's slot class, gives it back, whatever
its operands. -/
def Obligations.decode_of_encode : Prop := ∀ (i : Instr), i.wf = true → slotOf i ≠ .step →
  decode (slotOf i) (encode i) = some i

/-- R70 to R82: words of the spec's own listings, and what they stand for. -/
def Obligations.words_decode : Prop :=
  decode .s 0x6CC60001 = some (.addi 6 6 1) ∧ decode .s 0xD4000000 = some .exit ∧ decode .s 0xA8800022 = some (.gets 4 0x22) ∧
  decode .a 0x2CC90000 = some (.std 6 9 0 0 0 0) ∧ decode .a 0xB8000000 = some .qmark ∧ decode .a 0xE4000000 = some .l1inv ∧
  decode .g 0x40105000 = some (.bx 1 5) ∧ decode .g 0x80A02020 = some (.bxm 10 2 2) ∧
  decode .e 0x05204300 = some (.copy 9 0 2 3 0) ∧ decode .e 0x25000500 = some (.coll 8 0 5) ∧
  decode .x 0x08105001 = some (.cload 0 4 5 0 1) ∧ decode .x 0x23000175 = some (.cx 3 0 5 6 5) ∧ decode .x 0x00230001 = none ∧
  decode .entry 0x5D80700FF0000000 =
    some (.vfmul { cls := 3, fmt := 0, d := 1, a := 48, b := 3, c := 63, mask := 0, bank := 0, mod := 0 }) ∧
  decode .entry 0xE28E70FFF000000A =
    some (.vshn { cls := 5, fmt := 0, d := 57, a := 48, b := 63, c := 63, mask := 0, bank := 0, mod := 10 })

/-- The memories of every step stay in canonical form (R8, and the model's own form of memory).
The canonical form is the model's choice (log entry 2). -/
def Obligations.steps_keep_memory_canonical : Prop := ∀ (s t : State), s.memWf → step s = .next t → t.memWf

/-- R365: what reset leaves: no launch, no agenda, no device memory written; in every package of the pod the host interface is disabled, DEV_STATUS
reads 0, every telemetry counter is 0, AGING_NS reads 1,000,000, the scrub period is a day; contexts are idle. That an unwritten byte
reads 0 is the model's choice (log entry 2), and so are the empty repair log and the idle contexts (log entries 3, 4 and 5). -/
def Obligations.reset_state : Prop :=
  State.reset.memWf ∧ State.reset.launches = [] ∧ State.reset.agenda = [] ∧ (∀ a, Mem.rd State.reset.mem a = 0) ∧
  (∀ p, State.reset.enable p = false ∧ regWord State.reset p 0 = 0 ∧ regWord State.reset p 0x48 = 1000000 ∧
    (State.reset.pkg p).scrub = 86400 ∧ (∀ o, (State.reset.pkg p).tel.get o 0 = 0) ∧ (State.reset.pkg p).repairs = []) ∧
  ∀ ck x, (State.reset.ctx ck x).status = .idle

/-- The machine's stops: every instruction and every event of the machine answers with a next state; a step stops only when no
package's clocks run and nothing is to come, or when the agenda's head is a form that comes only with a bundle.
R363, R365 and R367 stop a package's clocks; the two stops are the model's choices (log entries 10 and 13). -/
def Obligations.every_instruction_answers : Prop :=
  (∀ (i : Instr) (s : State), ∃ t, exec i s = .next t) ∧
  ∀ (s : State), (s.dark = true → step s = .fault .clocksStopped) ∧ (s.misplaced = true → step s = .refused .notAStep) ∧
    (s.dark = false → s.misplaced = false → ∃ t, step s = .next t)
end

