-- ==== Sys2Proof/Laws/State.lean ====
section
/-!
SUPPORT. What the updates of the state change and what they leave: for each update the fields that it does not touch (true by
computation), and what the numbered parts of the pod read after it.
-/

namespace Sys2Proof

-- sparse tables

theorem Tbl.find_set {α : Type} (t : Tbl α) (k j : Nat) (v : α) : (t.set k v).find j = if k = j then some v else t.find j := by
  induction t with
  | nil => rfl
  | cons p t ih =>
    obtain ⟨i, a⟩ := p
    simp only [Tbl.set]
    split
    · simp only [Tbl.find]
    · split
      · simp only [Tbl.find]
        split <;> rename_i h1 h2 <;> simp_all
      · simp only [Tbl.find, ih]
        split <;> split <;> simp_all

theorem Tbl.get_set {α : Type} (t : Tbl α) (k j : Nat) (v d : α) : (t.set k v).get j d = if k = j then v else t.get j d := by
  induction t with
  | nil => rfl
  | cons p t ih =>
    obtain ⟨i, a⟩ := p
    simp only [Tbl.set]
    split
    · simp only [Tbl.get]
    · split
      · simp only [Tbl.get]
        split <;> rename_i h1 h2 <;> simp_all
      · simp only [Tbl.get, ih]
        split <;> split <;> simp_all

@[simp] theorem Tbl.get_set_same {α : Type} (t : Tbl α) (k : Nat) (v d : α) : (t.set k v).get k d = v := by simp [Tbl.get_set]

theorem Tbl.get_set_other {α : Type} (t : Tbl α) {k j : Nat} (v d : α) (h : k ≠ j) : (t.set k v).get j d = t.get j d := by
  simp [Tbl.get_set, h]

theorem Tbl.find_erase {α : Type} (t : Tbl α) (k j : Nat) : (t.erase k).find j = if k = j then none else t.find j := by
  induction t with
  | nil => simp [Tbl.erase, Tbl.find]
  | cons p t ih =>
    obtain ⟨i, a⟩ := p
    unfold Tbl.erase at ih ⊢
    by_cases h : i = k
    · subst h
      simp only [List.filter, bne_self_eq_false, ih, Tbl.find]
      split <;> simp_all
    · have hb : (i != k) = true := by simp [h]
      simp only [List.filter, hb, Tbl.find, ih]
      split <;> split <;> simp_all

/-- A table reads the listed value, or the default where nothing is listed. -/
theorem Tbl.get_eq {α : Type} (t : Tbl α) (k : Nat) (d : α) : t.get k d = (t.find k).getD d := by
  induction t with
  | nil => rfl
  | cons p t ih =>
    obtain ⟨i, a⟩ := p
    simp only [Tbl.get, Tbl.find]
    split <;> simp_all

/-- A value that a table lists for a number is one of its entries. -/
theorem Tbl.mem_of_find {α : Type} {t : Tbl α} {k : Nat} {v : α} (h : t.find k = some v) : (k, v) ∈ t := by
  induction t with
  | nil => simp [Tbl.find] at h
  | cons p t ih =>
    obtain ⟨i, a⟩ := p
    simp only [Tbl.find] at h
    split at h
    · simp_all
    · exact List.mem_cons_of_mem _ (ih h)

/-- An entry of a table after a write is the new one or an old one. -/
theorem Tbl.mem_set {α : Type} {t : Tbl α} {k : Nat} {v : α} {p : Nat × α} (h : p ∈ t.set k v) : p = (k, v) ∨ p ∈ t := by
  induction t with
  | nil => simp [Tbl.set] at h; exact .inl h
  | cons q t ih =>
    obtain ⟨i, a⟩ := q
    simp only [Tbl.set] at h
    split at h
    · simpa using h
    · split at h
      · simp only [List.mem_cons] at h ⊢
        rcases h with h | h <;> simp [h]
      · simp only [List.mem_cons] at h ⊢
        rcases h with h | h
        · exact .inr (.inl h)
        · rcases ih h with h | h
          · exact .inl h
          · exact .inr (.inr h)

namespace Machine

-- what an update leaves

@[simp] theorem State.setCore_tick (s : State) (ck : Nat) (c : Core) : (s.setCore ck c).tick = s.tick := rfl
@[simp] theorem State.setCore_pkgs (s : State) (ck : Nat) (c : Core) : (s.setCore ck c).pkgs = s.pkgs := rfl
@[simp] theorem State.setCore_dies (s : State) (ck : Nat) (c : Core) : (s.setCore ck c).dies = s.dies := rfl
@[simp] theorem State.setCore_mem (s : State) (ck : Nat) (c : Core) : (s.setCore ck c).mem = s.mem := rfl
@[simp] theorem State.setCore_poison (s : State) (ck : Nat) (c : Core) : (s.setCore ck c).poison = s.poison := rfl
@[simp] theorem State.setCore_launches (s : State) (ck : Nat) (c : Core) : (s.setCore ck c).launches = s.launches := rfl
@[simp] theorem State.setCore_nextLaunch (s : State) (ck : Nat) (c : Core) : (s.setCore ck c).nextLaunch = s.nextLaunch := rfl
@[simp] theorem State.setCore_windows (s : State) (ck : Nat) (c : Core) : (s.setCore ck c).windows = s.windows := rfl
@[simp] theorem State.setCore_ltxs (s : State) (ck : Nat) (c : Core) : (s.setCore ck c).ltxs = s.ltxs := rfl
@[simp] theorem State.setCore_colls (s : State) (ck : Nat) (c : Core) : (s.setCore ck c).colls = s.colls := rfl
@[simp] theorem State.setCore_collSeq (s : State) (ck : Nat) (c : Core) : (s.setCore ck c).collSeq = s.collSeq := rfl
@[simp] theorem State.setCore_waiters (s : State) (ck : Nat) (c : Core) : (s.setCore ck c).waiters = s.waiters := rfl
@[simp] theorem State.setCore_devHeld (s : State) (ck : Nat) (c : Core) : (s.setCore ck c).devHeld = s.devHeld := rfl
@[simp] theorem State.setCore_frame (s : State) (ck : Nat) (c : Core) : (s.setCore ck c).frame = s.frame := rfl
@[simp] theorem State.setCore_ev (s : State) (ck : Nat) (c : Core) : (s.setCore ck c).ev = s.ev := rfl
@[simp] theorem State.setCore_agenda (s : State) (ck : Nat) (c : Core) : (s.setCore ck c).agenda = s.agenda := rfl
@[simp] theorem State.setCore_focus (s : State) (ck : Nat) (c : Core) : (s.setCore ck c).focus = s.focus := rfl
@[simp] theorem State.setCore_free (s : State) (ck : Nat) (c : Core) : (s.setCore ck c).free = s.free := rfl

@[simp] theorem State.modCore_tick (s : State) (ck : Nat) (f : Core → Core) : (s.modCore ck f).tick = s.tick := rfl
@[simp] theorem State.modCore_pkgs (s : State) (ck : Nat) (f : Core → Core) : (s.modCore ck f).pkgs = s.pkgs := rfl
@[simp] theorem State.modCore_dies (s : State) (ck : Nat) (f : Core → Core) : (s.modCore ck f).dies = s.dies := rfl
@[simp] theorem State.modCore_mem (s : State) (ck : Nat) (f : Core → Core) : (s.modCore ck f).mem = s.mem := rfl
@[simp] theorem State.modCore_poison (s : State) (ck : Nat) (f : Core → Core) : (s.modCore ck f).poison = s.poison := rfl
@[simp] theorem State.modCore_launches (s : State) (ck : Nat) (f : Core → Core) : (s.modCore ck f).launches = s.launches := rfl
@[simp] theorem State.modCore_nextLaunch (s : State) (ck : Nat) (f : Core → Core) : (s.modCore ck f).nextLaunch = s.nextLaunch := rfl
@[simp] theorem State.modCore_windows (s : State) (ck : Nat) (f : Core → Core) : (s.modCore ck f).windows = s.windows := rfl
@[simp] theorem State.modCore_ltxs (s : State) (ck : Nat) (f : Core → Core) : (s.modCore ck f).ltxs = s.ltxs := rfl
@[simp] theorem State.modCore_colls (s : State) (ck : Nat) (f : Core → Core) : (s.modCore ck f).colls = s.colls := rfl
@[simp] theorem State.modCore_collSeq (s : State) (ck : Nat) (f : Core → Core) : (s.modCore ck f).collSeq = s.collSeq := rfl
@[simp] theorem State.modCore_waiters (s : State) (ck : Nat) (f : Core → Core) : (s.modCore ck f).waiters = s.waiters := rfl
@[simp] theorem State.modCore_devHeld (s : State) (ck : Nat) (f : Core → Core) : (s.modCore ck f).devHeld = s.devHeld := rfl
@[simp] theorem State.modCore_frame (s : State) (ck : Nat) (f : Core → Core) : (s.modCore ck f).frame = s.frame := rfl
@[simp] theorem State.modCore_ev (s : State) (ck : Nat) (f : Core → Core) : (s.modCore ck f).ev = s.ev := rfl
@[simp] theorem State.modCore_agenda (s : State) (ck : Nat) (f : Core → Core) : (s.modCore ck f).agenda = s.agenda := rfl
@[simp] theorem State.modCore_focus (s : State) (ck : Nat) (f : Core → Core) : (s.modCore ck f).focus = s.focus := rfl
@[simp] theorem State.modCore_free (s : State) (ck : Nat) (f : Core → Core) : (s.modCore ck f).free = s.free := rfl

@[simp] theorem State.setCtx_tick (s : State) (ck x : Nat) (c : Ctx) : (s.setCtx ck x c).tick = s.tick := rfl
@[simp] theorem State.setCtx_pkgs (s : State) (ck x : Nat) (c : Ctx) : (s.setCtx ck x c).pkgs = s.pkgs := rfl
@[simp] theorem State.setCtx_dies (s : State) (ck x : Nat) (c : Ctx) : (s.setCtx ck x c).dies = s.dies := rfl
@[simp] theorem State.setCtx_mem (s : State) (ck x : Nat) (c : Ctx) : (s.setCtx ck x c).mem = s.mem := rfl
@[simp] theorem State.setCtx_poison (s : State) (ck x : Nat) (c : Ctx) : (s.setCtx ck x c).poison = s.poison := rfl
@[simp] theorem State.setCtx_launches (s : State) (ck x : Nat) (c : Ctx) : (s.setCtx ck x c).launches = s.launches := rfl
@[simp] theorem State.setCtx_nextLaunch (s : State) (ck x : Nat) (c : Ctx) : (s.setCtx ck x c).nextLaunch = s.nextLaunch := rfl
@[simp] theorem State.setCtx_windows (s : State) (ck x : Nat) (c : Ctx) : (s.setCtx ck x c).windows = s.windows := rfl
@[simp] theorem State.setCtx_ltxs (s : State) (ck x : Nat) (c : Ctx) : (s.setCtx ck x c).ltxs = s.ltxs := rfl
@[simp] theorem State.setCtx_colls (s : State) (ck x : Nat) (c : Ctx) : (s.setCtx ck x c).colls = s.colls := rfl
@[simp] theorem State.setCtx_collSeq (s : State) (ck x : Nat) (c : Ctx) : (s.setCtx ck x c).collSeq = s.collSeq := rfl
@[simp] theorem State.setCtx_waiters (s : State) (ck x : Nat) (c : Ctx) : (s.setCtx ck x c).waiters = s.waiters := rfl
@[simp] theorem State.setCtx_devHeld (s : State) (ck x : Nat) (c : Ctx) : (s.setCtx ck x c).devHeld = s.devHeld := rfl
@[simp] theorem State.setCtx_frame (s : State) (ck x : Nat) (c : Ctx) : (s.setCtx ck x c).frame = s.frame := rfl
@[simp] theorem State.setCtx_ev (s : State) (ck x : Nat) (c : Ctx) : (s.setCtx ck x c).ev = s.ev := rfl
@[simp] theorem State.setCtx_agenda (s : State) (ck x : Nat) (c : Ctx) : (s.setCtx ck x c).agenda = s.agenda := rfl
@[simp] theorem State.setCtx_focus (s : State) (ck x : Nat) (c : Ctx) : (s.setCtx ck x c).focus = s.focus := rfl
@[simp] theorem State.setCtx_free (s : State) (ck x : Nat) (c : Ctx) : (s.setCtx ck x c).free = s.free := rfl

@[simp] theorem State.modCtx_tick (s : State) (ck x : Nat) (f : Ctx → Ctx) : (s.modCtx ck x f).tick = s.tick := rfl
@[simp] theorem State.modCtx_pkgs (s : State) (ck x : Nat) (f : Ctx → Ctx) : (s.modCtx ck x f).pkgs = s.pkgs := rfl
@[simp] theorem State.modCtx_dies (s : State) (ck x : Nat) (f : Ctx → Ctx) : (s.modCtx ck x f).dies = s.dies := rfl
@[simp] theorem State.modCtx_mem (s : State) (ck x : Nat) (f : Ctx → Ctx) : (s.modCtx ck x f).mem = s.mem := rfl
@[simp] theorem State.modCtx_poison (s : State) (ck x : Nat) (f : Ctx → Ctx) : (s.modCtx ck x f).poison = s.poison := rfl
@[simp] theorem State.modCtx_launches (s : State) (ck x : Nat) (f : Ctx → Ctx) : (s.modCtx ck x f).launches = s.launches := rfl
@[simp] theorem State.modCtx_nextLaunch (s : State) (ck x : Nat) (f : Ctx → Ctx) : (s.modCtx ck x f).nextLaunch = s.nextLaunch := rfl
@[simp] theorem State.modCtx_windows (s : State) (ck x : Nat) (f : Ctx → Ctx) : (s.modCtx ck x f).windows = s.windows := rfl
@[simp] theorem State.modCtx_ltxs (s : State) (ck x : Nat) (f : Ctx → Ctx) : (s.modCtx ck x f).ltxs = s.ltxs := rfl
@[simp] theorem State.modCtx_colls (s : State) (ck x : Nat) (f : Ctx → Ctx) : (s.modCtx ck x f).colls = s.colls := rfl
@[simp] theorem State.modCtx_collSeq (s : State) (ck x : Nat) (f : Ctx → Ctx) : (s.modCtx ck x f).collSeq = s.collSeq := rfl
@[simp] theorem State.modCtx_waiters (s : State) (ck x : Nat) (f : Ctx → Ctx) : (s.modCtx ck x f).waiters = s.waiters := rfl
@[simp] theorem State.modCtx_devHeld (s : State) (ck x : Nat) (f : Ctx → Ctx) : (s.modCtx ck x f).devHeld = s.devHeld := rfl
@[simp] theorem State.modCtx_frame (s : State) (ck x : Nat) (f : Ctx → Ctx) : (s.modCtx ck x f).frame = s.frame := rfl
@[simp] theorem State.modCtx_ev (s : State) (ck x : Nat) (f : Ctx → Ctx) : (s.modCtx ck x f).ev = s.ev := rfl
@[simp] theorem State.modCtx_agenda (s : State) (ck x : Nat) (f : Ctx → Ctx) : (s.modCtx ck x f).agenda = s.agenda := rfl
@[simp] theorem State.modCtx_focus (s : State) (ck x : Nat) (f : Ctx → Ctx) : (s.modCtx ck x f).focus = s.focus := rfl
@[simp] theorem State.modCtx_free (s : State) (ck x : Nat) (f : Ctx → Ctx) : (s.modCtx ck x f).free = s.free := rfl

@[simp] theorem State.modArch_tick (s : State) (ck x : Nat) (f : Arch → Arch) : (s.modArch ck x f).tick = s.tick := rfl
@[simp] theorem State.modArch_pkgs (s : State) (ck x : Nat) (f : Arch → Arch) : (s.modArch ck x f).pkgs = s.pkgs := rfl
@[simp] theorem State.modArch_dies (s : State) (ck x : Nat) (f : Arch → Arch) : (s.modArch ck x f).dies = s.dies := rfl
@[simp] theorem State.modArch_mem (s : State) (ck x : Nat) (f : Arch → Arch) : (s.modArch ck x f).mem = s.mem := rfl
@[simp] theorem State.modArch_poison (s : State) (ck x : Nat) (f : Arch → Arch) : (s.modArch ck x f).poison = s.poison := rfl
@[simp] theorem State.modArch_launches (s : State) (ck x : Nat) (f : Arch → Arch) : (s.modArch ck x f).launches = s.launches := rfl
@[simp] theorem State.modArch_nextLaunch (s : State) (ck x : Nat) (f : Arch → Arch) : (s.modArch ck x f).nextLaunch = s.nextLaunch := rfl
@[simp] theorem State.modArch_windows (s : State) (ck x : Nat) (f : Arch → Arch) : (s.modArch ck x f).windows = s.windows := rfl
@[simp] theorem State.modArch_ltxs (s : State) (ck x : Nat) (f : Arch → Arch) : (s.modArch ck x f).ltxs = s.ltxs := rfl
@[simp] theorem State.modArch_colls (s : State) (ck x : Nat) (f : Arch → Arch) : (s.modArch ck x f).colls = s.colls := rfl
@[simp] theorem State.modArch_collSeq (s : State) (ck x : Nat) (f : Arch → Arch) : (s.modArch ck x f).collSeq = s.collSeq := rfl
@[simp] theorem State.modArch_waiters (s : State) (ck x : Nat) (f : Arch → Arch) : (s.modArch ck x f).waiters = s.waiters := rfl
@[simp] theorem State.modArch_devHeld (s : State) (ck x : Nat) (f : Arch → Arch) : (s.modArch ck x f).devHeld = s.devHeld := rfl
@[simp] theorem State.modArch_frame (s : State) (ck x : Nat) (f : Arch → Arch) : (s.modArch ck x f).frame = s.frame := rfl
@[simp] theorem State.modArch_ev (s : State) (ck x : Nat) (f : Arch → Arch) : (s.modArch ck x f).ev = s.ev := rfl
@[simp] theorem State.modArch_agenda (s : State) (ck x : Nat) (f : Arch → Arch) : (s.modArch ck x f).agenda = s.agenda := rfl
@[simp] theorem State.modArch_focus (s : State) (ck x : Nat) (f : Arch → Arch) : (s.modArch ck x f).focus = s.focus := rfl
@[simp] theorem State.modArch_free (s : State) (ck x : Nat) (f : Arch → Arch) : (s.modArch ck x f).free = s.free := rfl

@[simp] theorem State.setDie_tick (s : State) (dk : Nat) (d : Die) : (s.setDie dk d).tick = s.tick := rfl
@[simp] theorem State.setDie_pkgs (s : State) (dk : Nat) (d : Die) : (s.setDie dk d).pkgs = s.pkgs := rfl
@[simp] theorem State.setDie_cores (s : State) (dk : Nat) (d : Die) : (s.setDie dk d).cores = s.cores := rfl
@[simp] theorem State.setDie_mem (s : State) (dk : Nat) (d : Die) : (s.setDie dk d).mem = s.mem := rfl
@[simp] theorem State.setDie_poison (s : State) (dk : Nat) (d : Die) : (s.setDie dk d).poison = s.poison := rfl
@[simp] theorem State.setDie_launches (s : State) (dk : Nat) (d : Die) : (s.setDie dk d).launches = s.launches := rfl
@[simp] theorem State.setDie_nextLaunch (s : State) (dk : Nat) (d : Die) : (s.setDie dk d).nextLaunch = s.nextLaunch := rfl
@[simp] theorem State.setDie_windows (s : State) (dk : Nat) (d : Die) : (s.setDie dk d).windows = s.windows := rfl
@[simp] theorem State.setDie_ltxs (s : State) (dk : Nat) (d : Die) : (s.setDie dk d).ltxs = s.ltxs := rfl
@[simp] theorem State.setDie_colls (s : State) (dk : Nat) (d : Die) : (s.setDie dk d).colls = s.colls := rfl
@[simp] theorem State.setDie_collSeq (s : State) (dk : Nat) (d : Die) : (s.setDie dk d).collSeq = s.collSeq := rfl
@[simp] theorem State.setDie_waiters (s : State) (dk : Nat) (d : Die) : (s.setDie dk d).waiters = s.waiters := rfl
@[simp] theorem State.setDie_devHeld (s : State) (dk : Nat) (d : Die) : (s.setDie dk d).devHeld = s.devHeld := rfl
@[simp] theorem State.setDie_frame (s : State) (dk : Nat) (d : Die) : (s.setDie dk d).frame = s.frame := rfl
@[simp] theorem State.setDie_ev (s : State) (dk : Nat) (d : Die) : (s.setDie dk d).ev = s.ev := rfl
@[simp] theorem State.setDie_agenda (s : State) (dk : Nat) (d : Die) : (s.setDie dk d).agenda = s.agenda := rfl
@[simp] theorem State.setDie_focus (s : State) (dk : Nat) (d : Die) : (s.setDie dk d).focus = s.focus := rfl
@[simp] theorem State.setDie_free (s : State) (dk : Nat) (d : Die) : (s.setDie dk d).free = s.free := rfl

@[simp] theorem State.modDie_tick (s : State) (dk : Nat) (f : Die → Die) : (s.modDie dk f).tick = s.tick := rfl
@[simp] theorem State.modDie_pkgs (s : State) (dk : Nat) (f : Die → Die) : (s.modDie dk f).pkgs = s.pkgs := rfl
@[simp] theorem State.modDie_cores (s : State) (dk : Nat) (f : Die → Die) : (s.modDie dk f).cores = s.cores := rfl
@[simp] theorem State.modDie_mem (s : State) (dk : Nat) (f : Die → Die) : (s.modDie dk f).mem = s.mem := rfl
@[simp] theorem State.modDie_poison (s : State) (dk : Nat) (f : Die → Die) : (s.modDie dk f).poison = s.poison := rfl
@[simp] theorem State.modDie_launches (s : State) (dk : Nat) (f : Die → Die) : (s.modDie dk f).launches = s.launches := rfl
@[simp] theorem State.modDie_nextLaunch (s : State) (dk : Nat) (f : Die → Die) : (s.modDie dk f).nextLaunch = s.nextLaunch := rfl
@[simp] theorem State.modDie_windows (s : State) (dk : Nat) (f : Die → Die) : (s.modDie dk f).windows = s.windows := rfl
@[simp] theorem State.modDie_ltxs (s : State) (dk : Nat) (f : Die → Die) : (s.modDie dk f).ltxs = s.ltxs := rfl
@[simp] theorem State.modDie_colls (s : State) (dk : Nat) (f : Die → Die) : (s.modDie dk f).colls = s.colls := rfl
@[simp] theorem State.modDie_collSeq (s : State) (dk : Nat) (f : Die → Die) : (s.modDie dk f).collSeq = s.collSeq := rfl
@[simp] theorem State.modDie_waiters (s : State) (dk : Nat) (f : Die → Die) : (s.modDie dk f).waiters = s.waiters := rfl
@[simp] theorem State.modDie_devHeld (s : State) (dk : Nat) (f : Die → Die) : (s.modDie dk f).devHeld = s.devHeld := rfl
@[simp] theorem State.modDie_frame (s : State) (dk : Nat) (f : Die → Die) : (s.modDie dk f).frame = s.frame := rfl
@[simp] theorem State.modDie_ev (s : State) (dk : Nat) (f : Die → Die) : (s.modDie dk f).ev = s.ev := rfl
@[simp] theorem State.modDie_agenda (s : State) (dk : Nat) (f : Die → Die) : (s.modDie dk f).agenda = s.agenda := rfl
@[simp] theorem State.modDie_focus (s : State) (dk : Nat) (f : Die → Die) : (s.modDie dk f).focus = s.focus := rfl
@[simp] theorem State.modDie_free (s : State) (dk : Nat) (f : Die → Die) : (s.modDie dk f).free = s.free := rfl

@[simp] theorem State.setPkg_tick (s : State) (p : Nat) (k : Pkg) : (s.setPkg p k).tick = s.tick := rfl
@[simp] theorem State.setPkg_dies (s : State) (p : Nat) (k : Pkg) : (s.setPkg p k).dies = s.dies := rfl
@[simp] theorem State.setPkg_cores (s : State) (p : Nat) (k : Pkg) : (s.setPkg p k).cores = s.cores := rfl
@[simp] theorem State.setPkg_mem (s : State) (p : Nat) (k : Pkg) : (s.setPkg p k).mem = s.mem := rfl
@[simp] theorem State.setPkg_poison (s : State) (p : Nat) (k : Pkg) : (s.setPkg p k).poison = s.poison := rfl
@[simp] theorem State.setPkg_launches (s : State) (p : Nat) (k : Pkg) : (s.setPkg p k).launches = s.launches := rfl
@[simp] theorem State.setPkg_nextLaunch (s : State) (p : Nat) (k : Pkg) : (s.setPkg p k).nextLaunch = s.nextLaunch := rfl
@[simp] theorem State.setPkg_windows (s : State) (p : Nat) (k : Pkg) : (s.setPkg p k).windows = s.windows := rfl
@[simp] theorem State.setPkg_ltxs (s : State) (p : Nat) (k : Pkg) : (s.setPkg p k).ltxs = s.ltxs := rfl
@[simp] theorem State.setPkg_colls (s : State) (p : Nat) (k : Pkg) : (s.setPkg p k).colls = s.colls := rfl
@[simp] theorem State.setPkg_collSeq (s : State) (p : Nat) (k : Pkg) : (s.setPkg p k).collSeq = s.collSeq := rfl
@[simp] theorem State.setPkg_waiters (s : State) (p : Nat) (k : Pkg) : (s.setPkg p k).waiters = s.waiters := rfl
@[simp] theorem State.setPkg_devHeld (s : State) (p : Nat) (k : Pkg) : (s.setPkg p k).devHeld = s.devHeld := rfl
@[simp] theorem State.setPkg_frame (s : State) (p : Nat) (k : Pkg) : (s.setPkg p k).frame = s.frame := rfl
@[simp] theorem State.setPkg_ev (s : State) (p : Nat) (k : Pkg) : (s.setPkg p k).ev = s.ev := rfl
@[simp] theorem State.setPkg_agenda (s : State) (p : Nat) (k : Pkg) : (s.setPkg p k).agenda = s.agenda := rfl
@[simp] theorem State.setPkg_focus (s : State) (p : Nat) (k : Pkg) : (s.setPkg p k).focus = s.focus := rfl
@[simp] theorem State.setPkg_free (s : State) (p : Nat) (k : Pkg) : (s.setPkg p k).free = s.free := rfl

@[simp] theorem State.modPkg_tick (s : State) (p : Nat) (f : Pkg → Pkg) : (s.modPkg p f).tick = s.tick := rfl
@[simp] theorem State.modPkg_dies (s : State) (p : Nat) (f : Pkg → Pkg) : (s.modPkg p f).dies = s.dies := rfl
@[simp] theorem State.modPkg_cores (s : State) (p : Nat) (f : Pkg → Pkg) : (s.modPkg p f).cores = s.cores := rfl
@[simp] theorem State.modPkg_mem (s : State) (p : Nat) (f : Pkg → Pkg) : (s.modPkg p f).mem = s.mem := rfl
@[simp] theorem State.modPkg_poison (s : State) (p : Nat) (f : Pkg → Pkg) : (s.modPkg p f).poison = s.poison := rfl
@[simp] theorem State.modPkg_launches (s : State) (p : Nat) (f : Pkg → Pkg) : (s.modPkg p f).launches = s.launches := rfl
@[simp] theorem State.modPkg_nextLaunch (s : State) (p : Nat) (f : Pkg → Pkg) : (s.modPkg p f).nextLaunch = s.nextLaunch := rfl
@[simp] theorem State.modPkg_windows (s : State) (p : Nat) (f : Pkg → Pkg) : (s.modPkg p f).windows = s.windows := rfl
@[simp] theorem State.modPkg_ltxs (s : State) (p : Nat) (f : Pkg → Pkg) : (s.modPkg p f).ltxs = s.ltxs := rfl
@[simp] theorem State.modPkg_colls (s : State) (p : Nat) (f : Pkg → Pkg) : (s.modPkg p f).colls = s.colls := rfl
@[simp] theorem State.modPkg_collSeq (s : State) (p : Nat) (f : Pkg → Pkg) : (s.modPkg p f).collSeq = s.collSeq := rfl
@[simp] theorem State.modPkg_waiters (s : State) (p : Nat) (f : Pkg → Pkg) : (s.modPkg p f).waiters = s.waiters := rfl
@[simp] theorem State.modPkg_devHeld (s : State) (p : Nat) (f : Pkg → Pkg) : (s.modPkg p f).devHeld = s.devHeld := rfl
@[simp] theorem State.modPkg_frame (s : State) (p : Nat) (f : Pkg → Pkg) : (s.modPkg p f).frame = s.frame := rfl
@[simp] theorem State.modPkg_ev (s : State) (p : Nat) (f : Pkg → Pkg) : (s.modPkg p f).ev = s.ev := rfl
@[simp] theorem State.modPkg_agenda (s : State) (p : Nat) (f : Pkg → Pkg) : (s.modPkg p f).agenda = s.agenda := rfl
@[simp] theorem State.modPkg_focus (s : State) (p : Nat) (f : Pkg → Pkg) : (s.modPkg p f).focus = s.focus := rfl
@[simp] theorem State.modPkg_free (s : State) (p : Nat) (f : Pkg → Pkg) : (s.modPkg p f).free = s.free := rfl

@[simp] theorem State.modLaunch_tick (s : State) (n : Nat) (f : Launch → Launch) : (s.modLaunch n f).tick = s.tick := rfl
@[simp] theorem State.modLaunch_pkgs (s : State) (n : Nat) (f : Launch → Launch) : (s.modLaunch n f).pkgs = s.pkgs := rfl
@[simp] theorem State.modLaunch_dies (s : State) (n : Nat) (f : Launch → Launch) : (s.modLaunch n f).dies = s.dies := rfl
@[simp] theorem State.modLaunch_cores (s : State) (n : Nat) (f : Launch → Launch) : (s.modLaunch n f).cores = s.cores := rfl
@[simp] theorem State.modLaunch_mem (s : State) (n : Nat) (f : Launch → Launch) : (s.modLaunch n f).mem = s.mem := rfl
@[simp] theorem State.modLaunch_poison (s : State) (n : Nat) (f : Launch → Launch) : (s.modLaunch n f).poison = s.poison := rfl
@[simp] theorem State.modLaunch_nextLaunch (s : State) (n : Nat) (f : Launch → Launch) : (s.modLaunch n f).nextLaunch = s.nextLaunch := rfl
@[simp] theorem State.modLaunch_windows (s : State) (n : Nat) (f : Launch → Launch) : (s.modLaunch n f).windows = s.windows := rfl
@[simp] theorem State.modLaunch_ltxs (s : State) (n : Nat) (f : Launch → Launch) : (s.modLaunch n f).ltxs = s.ltxs := rfl
@[simp] theorem State.modLaunch_colls (s : State) (n : Nat) (f : Launch → Launch) : (s.modLaunch n f).colls = s.colls := rfl
@[simp] theorem State.modLaunch_collSeq (s : State) (n : Nat) (f : Launch → Launch) : (s.modLaunch n f).collSeq = s.collSeq := rfl
@[simp] theorem State.modLaunch_waiters (s : State) (n : Nat) (f : Launch → Launch) : (s.modLaunch n f).waiters = s.waiters := rfl
@[simp] theorem State.modLaunch_devHeld (s : State) (n : Nat) (f : Launch → Launch) : (s.modLaunch n f).devHeld = s.devHeld := rfl
@[simp] theorem State.modLaunch_frame (s : State) (n : Nat) (f : Launch → Launch) : (s.modLaunch n f).frame = s.frame := rfl
@[simp] theorem State.modLaunch_ev (s : State) (n : Nat) (f : Launch → Launch) : (s.modLaunch n f).ev = s.ev := rfl
@[simp] theorem State.modLaunch_agenda (s : State) (n : Nat) (f : Launch → Launch) : (s.modLaunch n f).agenda = s.agenda := rfl
@[simp] theorem State.modLaunch_focus (s : State) (n : Nat) (f : Launch → Launch) : (s.modLaunch n f).focus = s.focus := rfl
@[simp] theorem State.modLaunch_free (s : State) (n : Nat) (f : Launch → Launch) : (s.modLaunch n f).free = s.free := rfl

@[simp] theorem State.modMe_tick (s : State) (f : Ctx → Ctx) : (s.modMe f).tick = s.tick := rfl
@[simp] theorem State.modMe_pkgs (s : State) (f : Ctx → Ctx) : (s.modMe f).pkgs = s.pkgs := rfl
@[simp] theorem State.modMe_dies (s : State) (f : Ctx → Ctx) : (s.modMe f).dies = s.dies := rfl
@[simp] theorem State.modMe_mem (s : State) (f : Ctx → Ctx) : (s.modMe f).mem = s.mem := rfl
@[simp] theorem State.modMe_poison (s : State) (f : Ctx → Ctx) : (s.modMe f).poison = s.poison := rfl
@[simp] theorem State.modMe_launches (s : State) (f : Ctx → Ctx) : (s.modMe f).launches = s.launches := rfl
@[simp] theorem State.modMe_nextLaunch (s : State) (f : Ctx → Ctx) : (s.modMe f).nextLaunch = s.nextLaunch := rfl
@[simp] theorem State.modMe_windows (s : State) (f : Ctx → Ctx) : (s.modMe f).windows = s.windows := rfl
@[simp] theorem State.modMe_ltxs (s : State) (f : Ctx → Ctx) : (s.modMe f).ltxs = s.ltxs := rfl
@[simp] theorem State.modMe_colls (s : State) (f : Ctx → Ctx) : (s.modMe f).colls = s.colls := rfl
@[simp] theorem State.modMe_collSeq (s : State) (f : Ctx → Ctx) : (s.modMe f).collSeq = s.collSeq := rfl
@[simp] theorem State.modMe_waiters (s : State) (f : Ctx → Ctx) : (s.modMe f).waiters = s.waiters := rfl
@[simp] theorem State.modMe_devHeld (s : State) (f : Ctx → Ctx) : (s.modMe f).devHeld = s.devHeld := rfl
@[simp] theorem State.modMe_frame (s : State) (f : Ctx → Ctx) : (s.modMe f).frame = s.frame := rfl
@[simp] theorem State.modMe_ev (s : State) (f : Ctx → Ctx) : (s.modMe f).ev = s.ev := rfl
@[simp] theorem State.modMe_agenda (s : State) (f : Ctx → Ctx) : (s.modMe f).agenda = s.agenda := rfl
@[simp] theorem State.modMe_focus (s : State) (f : Ctx → Ctx) : (s.modMe f).focus = s.focus := rfl
@[simp] theorem State.modMe_free (s : State) (f : Ctx → Ctx) : (s.modMe f).free = s.free := rfl

@[simp] theorem State.arch_tick (s : State) (f : Arch → Arch) : (s.arch f).tick = s.tick := rfl
@[simp] theorem State.arch_pkgs (s : State) (f : Arch → Arch) : (s.arch f).pkgs = s.pkgs := rfl
@[simp] theorem State.arch_dies (s : State) (f : Arch → Arch) : (s.arch f).dies = s.dies := rfl
@[simp] theorem State.arch_mem (s : State) (f : Arch → Arch) : (s.arch f).mem = s.mem := rfl
@[simp] theorem State.arch_poison (s : State) (f : Arch → Arch) : (s.arch f).poison = s.poison := rfl
@[simp] theorem State.arch_launches (s : State) (f : Arch → Arch) : (s.arch f).launches = s.launches := rfl
@[simp] theorem State.arch_nextLaunch (s : State) (f : Arch → Arch) : (s.arch f).nextLaunch = s.nextLaunch := rfl
@[simp] theorem State.arch_windows (s : State) (f : Arch → Arch) : (s.arch f).windows = s.windows := rfl
@[simp] theorem State.arch_ltxs (s : State) (f : Arch → Arch) : (s.arch f).ltxs = s.ltxs := rfl
@[simp] theorem State.arch_colls (s : State) (f : Arch → Arch) : (s.arch f).colls = s.colls := rfl
@[simp] theorem State.arch_collSeq (s : State) (f : Arch → Arch) : (s.arch f).collSeq = s.collSeq := rfl
@[simp] theorem State.arch_waiters (s : State) (f : Arch → Arch) : (s.arch f).waiters = s.waiters := rfl
@[simp] theorem State.arch_devHeld (s : State) (f : Arch → Arch) : (s.arch f).devHeld = s.devHeld := rfl
@[simp] theorem State.arch_frame (s : State) (f : Arch → Arch) : (s.arch f).frame = s.frame := rfl
@[simp] theorem State.arch_ev (s : State) (f : Arch → Arch) : (s.arch f).ev = s.ev := rfl
@[simp] theorem State.arch_agenda (s : State) (f : Arch → Arch) : (s.arch f).agenda = s.agenda := rfl
@[simp] theorem State.arch_focus (s : State) (f : Arch → Arch) : (s.arch f).focus = s.focus := rfl
@[simp] theorem State.arch_free (s : State) (f : Arch → Arch) : (s.arch f).free = s.free := rfl

@[simp] theorem State.atEvent_tick (s : State) (e : EvArgs) : (s.atEvent e).tick = s.tick := rfl
@[simp] theorem State.atEvent_pkgs (s : State) (e : EvArgs) : (s.atEvent e).pkgs = s.pkgs := rfl
@[simp] theorem State.atEvent_dies (s : State) (e : EvArgs) : (s.atEvent e).dies = s.dies := rfl
@[simp] theorem State.atEvent_cores (s : State) (e : EvArgs) : (s.atEvent e).cores = s.cores := rfl
@[simp] theorem State.atEvent_mem (s : State) (e : EvArgs) : (s.atEvent e).mem = s.mem := rfl
@[simp] theorem State.atEvent_poison (s : State) (e : EvArgs) : (s.atEvent e).poison = s.poison := rfl
@[simp] theorem State.atEvent_launches (s : State) (e : EvArgs) : (s.atEvent e).launches = s.launches := rfl
@[simp] theorem State.atEvent_nextLaunch (s : State) (e : EvArgs) : (s.atEvent e).nextLaunch = s.nextLaunch := rfl
@[simp] theorem State.atEvent_windows (s : State) (e : EvArgs) : (s.atEvent e).windows = s.windows := rfl
@[simp] theorem State.atEvent_ltxs (s : State) (e : EvArgs) : (s.atEvent e).ltxs = s.ltxs := rfl
@[simp] theorem State.atEvent_colls (s : State) (e : EvArgs) : (s.atEvent e).colls = s.colls := rfl
@[simp] theorem State.atEvent_collSeq (s : State) (e : EvArgs) : (s.atEvent e).collSeq = s.collSeq := rfl
@[simp] theorem State.atEvent_waiters (s : State) (e : EvArgs) : (s.atEvent e).waiters = s.waiters := rfl
@[simp] theorem State.atEvent_devHeld (s : State) (e : EvArgs) : (s.atEvent e).devHeld = s.devHeld := rfl
@[simp] theorem State.atEvent_frame (s : State) (e : EvArgs) : (s.atEvent e).frame = s.frame := rfl
@[simp] theorem State.atEvent_agenda (s : State) (e : EvArgs) : (s.atEvent e).agenda = s.agenda := rfl
@[simp] theorem State.atEvent_focus (s : State) (e : EvArgs) : (s.atEvent e).focus = s.focus := rfl

@[simp] theorem State.count_tick (s : State) (p o : Nat) : (s.count p o).tick = s.tick := rfl
@[simp] theorem State.count_dies (s : State) (p o : Nat) : (s.count p o).dies = s.dies := rfl
@[simp] theorem State.count_cores (s : State) (p o : Nat) : (s.count p o).cores = s.cores := rfl
@[simp] theorem State.count_mem (s : State) (p o : Nat) : (s.count p o).mem = s.mem := rfl
@[simp] theorem State.count_poison (s : State) (p o : Nat) : (s.count p o).poison = s.poison := rfl
@[simp] theorem State.count_launches (s : State) (p o : Nat) : (s.count p o).launches = s.launches := rfl
@[simp] theorem State.count_nextLaunch (s : State) (p o : Nat) : (s.count p o).nextLaunch = s.nextLaunch := rfl
@[simp] theorem State.count_windows (s : State) (p o : Nat) : (s.count p o).windows = s.windows := rfl
@[simp] theorem State.count_ltxs (s : State) (p o : Nat) : (s.count p o).ltxs = s.ltxs := rfl
@[simp] theorem State.count_colls (s : State) (p o : Nat) : (s.count p o).colls = s.colls := rfl
@[simp] theorem State.count_collSeq (s : State) (p o : Nat) : (s.count p o).collSeq = s.collSeq := rfl
@[simp] theorem State.count_waiters (s : State) (p o : Nat) : (s.count p o).waiters = s.waiters := rfl
@[simp] theorem State.count_devHeld (s : State) (p o : Nat) : (s.count p o).devHeld = s.devHeld := rfl
@[simp] theorem State.count_frame (s : State) (p o : Nat) : (s.count p o).frame = s.frame := rfl
@[simp] theorem State.count_ev (s : State) (p o : Nat) : (s.count p o).ev = s.ev := rfl
@[simp] theorem State.count_agenda (s : State) (p o : Nat) : (s.count p o).agenda = s.agenda := rfl
@[simp] theorem State.count_focus (s : State) (p o : Nat) : (s.count p o).focus = s.focus := rfl
@[simp] theorem State.count_free (s : State) (p o : Nat) : (s.count p o).free = s.free := rfl

@[simp] theorem State.countBy_tick (s : State) (p o n : Nat) : (s.countBy p o n).tick = s.tick := rfl
@[simp] theorem State.countBy_dies (s : State) (p o n : Nat) : (s.countBy p o n).dies = s.dies := rfl
@[simp] theorem State.countBy_cores (s : State) (p o n : Nat) : (s.countBy p o n).cores = s.cores := rfl
@[simp] theorem State.countBy_mem (s : State) (p o n : Nat) : (s.countBy p o n).mem = s.mem := rfl
@[simp] theorem State.countBy_poison (s : State) (p o n : Nat) : (s.countBy p o n).poison = s.poison := rfl
@[simp] theorem State.countBy_launches (s : State) (p o n : Nat) : (s.countBy p o n).launches = s.launches := rfl
@[simp] theorem State.countBy_nextLaunch (s : State) (p o n : Nat) : (s.countBy p o n).nextLaunch = s.nextLaunch := rfl
@[simp] theorem State.countBy_windows (s : State) (p o n : Nat) : (s.countBy p o n).windows = s.windows := rfl
@[simp] theorem State.countBy_ltxs (s : State) (p o n : Nat) : (s.countBy p o n).ltxs = s.ltxs := rfl
@[simp] theorem State.countBy_colls (s : State) (p o n : Nat) : (s.countBy p o n).colls = s.colls := rfl
@[simp] theorem State.countBy_collSeq (s : State) (p o n : Nat) : (s.countBy p o n).collSeq = s.collSeq := rfl
@[simp] theorem State.countBy_waiters (s : State) (p o n : Nat) : (s.countBy p o n).waiters = s.waiters := rfl
@[simp] theorem State.countBy_devHeld (s : State) (p o n : Nat) : (s.countBy p o n).devHeld = s.devHeld := rfl
@[simp] theorem State.countBy_frame (s : State) (p o n : Nat) : (s.countBy p o n).frame = s.frame := rfl
@[simp] theorem State.countBy_ev (s : State) (p o n : Nat) : (s.countBy p o n).ev = s.ev := rfl
@[simp] theorem State.countBy_agenda (s : State) (p o n : Nat) : (s.countBy p o n).agenda = s.agenda := rfl
@[simp] theorem State.countBy_focus (s : State) (p o n : Nat) : (s.countBy p o n).focus = s.focus := rfl
@[simp] theorem State.countBy_free (s : State) (p o n : Nat) : (s.countBy p o n).free = s.free := rfl

@[simp] theorem State.countCore_tick (s : State) (ck o : Nat) : (s.countCore ck o).tick = s.tick := rfl
@[simp] theorem State.countCore_dies (s : State) (ck o : Nat) : (s.countCore ck o).dies = s.dies := rfl
@[simp] theorem State.countCore_cores (s : State) (ck o : Nat) : (s.countCore ck o).cores = s.cores := rfl
@[simp] theorem State.countCore_mem (s : State) (ck o : Nat) : (s.countCore ck o).mem = s.mem := rfl
@[simp] theorem State.countCore_poison (s : State) (ck o : Nat) : (s.countCore ck o).poison = s.poison := rfl
@[simp] theorem State.countCore_launches (s : State) (ck o : Nat) : (s.countCore ck o).launches = s.launches := rfl
@[simp] theorem State.countCore_nextLaunch (s : State) (ck o : Nat) : (s.countCore ck o).nextLaunch = s.nextLaunch := rfl
@[simp] theorem State.countCore_windows (s : State) (ck o : Nat) : (s.countCore ck o).windows = s.windows := rfl
@[simp] theorem State.countCore_ltxs (s : State) (ck o : Nat) : (s.countCore ck o).ltxs = s.ltxs := rfl
@[simp] theorem State.countCore_colls (s : State) (ck o : Nat) : (s.countCore ck o).colls = s.colls := rfl
@[simp] theorem State.countCore_collSeq (s : State) (ck o : Nat) : (s.countCore ck o).collSeq = s.collSeq := rfl
@[simp] theorem State.countCore_waiters (s : State) (ck o : Nat) : (s.countCore ck o).waiters = s.waiters := rfl
@[simp] theorem State.countCore_devHeld (s : State) (ck o : Nat) : (s.countCore ck o).devHeld = s.devHeld := rfl
@[simp] theorem State.countCore_frame (s : State) (ck o : Nat) : (s.countCore ck o).frame = s.frame := rfl
@[simp] theorem State.countCore_ev (s : State) (ck o : Nat) : (s.countCore ck o).ev = s.ev := rfl
@[simp] theorem State.countCore_agenda (s : State) (ck o : Nat) : (s.countCore ck o).agenda = s.agenda := rfl
@[simp] theorem State.countCore_focus (s : State) (ck o : Nat) : (s.countCore ck o).focus = s.focus := rfl
@[simp] theorem State.countCore_free (s : State) (ck o : Nat) : (s.countCore ck o).free = s.free := rfl

@[simp] theorem State.event_tick (s : State) (p c n d : Nat) : (s.event p c n d).tick = s.tick := rfl
@[simp] theorem State.event_dies (s : State) (p c n d : Nat) : (s.event p c n d).dies = s.dies := rfl
@[simp] theorem State.event_cores (s : State) (p c n d : Nat) : (s.event p c n d).cores = s.cores := rfl
@[simp] theorem State.event_mem (s : State) (p c n d : Nat) : (s.event p c n d).mem = s.mem := rfl
@[simp] theorem State.event_poison (s : State) (p c n d : Nat) : (s.event p c n d).poison = s.poison := rfl
@[simp] theorem State.event_launches (s : State) (p c n d : Nat) : (s.event p c n d).launches = s.launches := rfl
@[simp] theorem State.event_nextLaunch (s : State) (p c n d : Nat) : (s.event p c n d).nextLaunch = s.nextLaunch := rfl
@[simp] theorem State.event_windows (s : State) (p c n d : Nat) : (s.event p c n d).windows = s.windows := rfl
@[simp] theorem State.event_ltxs (s : State) (p c n d : Nat) : (s.event p c n d).ltxs = s.ltxs := rfl
@[simp] theorem State.event_colls (s : State) (p c n d : Nat) : (s.event p c n d).colls = s.colls := rfl
@[simp] theorem State.event_collSeq (s : State) (p c n d : Nat) : (s.event p c n d).collSeq = s.collSeq := rfl
@[simp] theorem State.event_waiters (s : State) (p c n d : Nat) : (s.event p c n d).waiters = s.waiters := rfl
@[simp] theorem State.event_devHeld (s : State) (p c n d : Nat) : (s.event p c n d).devHeld = s.devHeld := rfl
@[simp] theorem State.event_frame (s : State) (p c n d : Nat) : (s.event p c n d).frame = s.frame := rfl
@[simp] theorem State.event_ev (s : State) (p c n d : Nat) : (s.event p c n d).ev = s.ev := rfl
@[simp] theorem State.event_agenda (s : State) (p c n d : Nat) : (s.event p c n d).agenda = s.agenda := rfl
@[simp] theorem State.event_focus (s : State) (p c n d : Nat) : (s.event p c n d).focus = s.focus := rfl
@[simp] theorem State.event_free (s : State) (p c n d : Nat) : (s.event p c n d).free = s.free := rfl

-- what the parts of the pod read

theorem State.core_setCore (s : State) (ck j : Nat) (c : Core) : (s.setCore ck c).core j = if ck = j then c else s.core j :=
  Tbl.get_set ..
@[simp] theorem State.core_setCore_same (s : State) (ck : Nat) (c : Core) : (s.setCore ck c).core ck = c := Tbl.get_set_same ..
@[simp] theorem State.core_modCore_same (s : State) (ck : Nat) (f : Core → Core) : (s.modCore ck f).core ck = f (s.core ck) :=
  Tbl.get_set_same ..
theorem State.core_modCore (s : State) (ck j : Nat) (f : Core → Core) :
    (s.modCore ck f).core j = if ck = j then f (s.core ck) else s.core j := Tbl.get_set ..
theorem Core.ctx_setCtx (c : Core) (x j : Nat) (k : Ctx) : (c.setCtx x k).ctx j = if x = j then k else c.ctx j := Tbl.get_set ..
@[simp] theorem Core.ctx_setCtx_same (c : Core) (x : Nat) (k : Ctx) : (c.setCtx x k).ctx x = k := Tbl.get_set_same ..
@[simp] theorem State.ctx_setCtx_same (s : State) (ck x : Nat) (k : Ctx) : (s.setCtx ck x k).ctx ck x = k := by
  simp [State.setCtx, State.ctx]
@[simp] theorem State.ctx_modCtx_same (s : State) (ck x : Nat) (f : Ctx → Ctx) : (s.modCtx ck x f).ctx ck x = f (s.ctx ck x) :=
  State.ctx_setCtx_same ..
@[simp] theorem State.me_modMe (s : State) (f : Ctx → Ctx) : (s.modMe f).me = f s.me := State.ctx_modCtx_same ..
theorem State.die_setDie (s : State) (dk j : Nat) (d : Die) : (s.setDie dk d).die j = if dk = j then d else s.die j := Tbl.get_set ..
@[simp] theorem State.die_modDie_same (s : State) (dk : Nat) (f : Die → Die) : (s.modDie dk f).die dk = f (s.die dk) :=
  Tbl.get_set_same ..
theorem State.pkg_setPkg (s : State) (p j : Nat) (k : Pkg) : (s.setPkg p k).pkg j = if p = j then k else s.pkg j := Tbl.get_set ..
@[simp] theorem State.pkg_modPkg_same (s : State) (p : Nat) (f : Pkg → Pkg) : (s.modPkg p f).pkg p = f (s.pkg p) :=
  Tbl.get_set_same ..
theorem State.pkg_modPkg (s : State) (p j : Nat) (f : Pkg → Pkg) :
    (s.modPkg p f).pkg j = if p = j then f (s.pkg p) else s.pkg j := Tbl.get_set ..

/-- A launch is found after a change that keeps its number. -/
theorem findLaunch_map (l : List Launch) (n m : Nat) (f : Launch → Launch) (h : ∀ x, (f x).id = x.id) :
    findLaunch (l.map (fun x => if x.id = n then f x else x)) m =
      (findLaunch l m).map (fun x => if x.id = n then f x else x) := by
  induction l with
  | nil => rfl
  | cons x t ih =>
    have e : (if x.id = n then f x else x).id = x.id := by split <;> simp [h]
    simp only [List.map_cons, findLaunch, e]
    split <;> simp_all

-- scalar registers and predicates

/-- R14: a write to scalar register `d` is seen there, and nowhere else; s0 discards it. -/
theorem nowS_other (s t : State) (r : BitVec 5) (h : t.me.arch = s.me.arch) : t.nowS r = s.nowS r := by
  unfold State.nowS; rw [h]

end Machine

end Sys2Proof
end

