-- ==== Sys2Proof/Laws/Memory.lean ====
section
/-!
SUPPORT. The canonical form of memories: every operation on memory keeps it, and what reading sees after a write of one byte.
-/

namespace Sys2Proof.Machine

/-- A memory that is canonical above an address is canonical above any lower one. -/
theorem Mem.canonFrom_mono {m : Mem} {lo hi : Nat} (h : lo ≤ hi) (w : Mem.canonFrom hi m = true) : Mem.canonFrom lo m = true := by
  cases m with
  | nil => rfl
  | cons p t =>
    obtain ⟨a, v⟩ := p
    simp only [Mem.canonFrom, Bool.and_eq_true, decide_eq_true_eq] at w ⊢
    exact ⟨⟨by omega, w.1.2⟩, w.2⟩

/-- Nothing is listed below the address above which a memory is canonical. -/
theorem Mem.rd_below {m : Mem} {lo a : Nat} (w : Mem.canonFrom lo m = true) (h : a < lo) : Mem.rd m a = 0 := by
  induction m generalizing lo with
  | nil => rfl
  | cons p t ih =>
    obtain ⟨b, v⟩ := p
    simp only [Mem.canonFrom, Bool.and_eq_true, decide_eq_true_eq] at w
    have hb : ¬ b = a := by omega
    simp only [Mem.rd, hb, if_false]
    exact ih w.2 (by omega)

/-- A write above an address keeps the form above it. -/
theorem Mem.canonFrom_wr {m : Mem} {lo a : Nat} (v : Byte) (w : Mem.canonFrom lo m = true) (h : lo ≤ a) :
    Mem.canonFrom lo (Mem.wr m a v) = true := by
  induction m generalizing lo with
  | nil =>
    simp only [Mem.wr]
    split <;> simp_all [Mem.canonFrom]
  | cons p t ih =>
    obtain ⟨b, x⟩ := p
    simp only [Mem.canonFrom, Bool.and_eq_true, decide_eq_true_eq, bne_iff_ne, ne_eq] at w
    obtain ⟨⟨wb, wx⟩, wt⟩ := w
    simp only [Mem.wr]
    split
    · split
      · simp_all [Mem.canonFrom]
      · simp_all [Mem.canonFrom]
        try omega
    · split
      · subst b
        split
        · exact Mem.canonFrom_mono (by omega) wt
        · simp_all [Mem.canonFrom]
      · simp only [Mem.canonFrom, Bool.and_eq_true, decide_eq_true_eq, bne_iff_ne, ne_eq]
        exact ⟨⟨wb, wx⟩, ih wt (by omega)⟩

/-- A write of one byte keeps the canonical form. -/
theorem Memory.wf_wr {m : Mem} (a : Nat) (v : Byte) (w : Memory.wf m = true) : Memory.wf (Mem.wr m a v) = true :=
  Mem.canonFrom_wr v w (Nat.zero_le a)

/-- A write of bytes keeps the canonical form. -/
theorem Memory.wf_put {m : Mem} (a : Nat) (bs : List Byte) (w : Memory.wf m = true) : Memory.wf (Mem.put m a bs) = true := by
  induction bs generalizing m a with
  | nil => exact w
  | cons b t ih => exact ih (a + 1) (Memory.wf_wr a b w)

/-- Dropping cells keeps the canonical form. -/
theorem Mem.canonFrom_filter (f : Nat × Byte → Bool) {m : Mem} {lo : Nat} (w : Mem.canonFrom lo m = true) :
    Mem.canonFrom lo (m.filter f) = true := by
  induction m generalizing lo with
  | nil => rfl
  | cons p t ih =>
    obtain ⟨a, v⟩ := p
    simp only [Mem.canonFrom, Bool.and_eq_true, decide_eq_true_eq] at w
    simp only [List.filter]
    split
    · simp only [Mem.canonFrom, Bool.and_eq_true, decide_eq_true_eq]
      exact ⟨w.1, ih w.2⟩
    · exact Mem.canonFrom_mono (by omega) (ih w.2)

theorem Memory.wf_filter (f : Nat × Byte → Bool) {m : Mem} (w : Memory.wf m = true) : Memory.wf (m.filter f) = true :=
  Mem.canonFrom_filter f w

/-- Writes one after another keep the canonical form. -/
theorem Memory.wf_foldl_wr {α : Type} (l : List α) (a : α → Nat) (v : α → Byte) {m : Mem} (w : Memory.wf m = true) :
    Memory.wf (l.foldl (fun m x => Mem.wr m (a x) (v x)) m) = true := by
  induction l generalizing m with
  | nil => exact w
  | cons x t ih => exact ih (Memory.wf_wr (a x) (v x) w)

/-- What reading sees after one byte is written to a canonical memory. -/
theorem Mem.rd_wr_from {m : Mem} {lo a : Nat} (v : Byte) (w : Mem.canonFrom lo m = true) (b : Nat) :
    Mem.rd (Mem.wr m a v) b = if b = a then v else Mem.rd m b := by
  induction m generalizing lo with
  | nil =>
    simp only [Mem.wr]
    split
    · simp_all [Mem.rd]
    · simp only [Mem.rd]
      split <;> split <;> simp_all
  | cons p t ih =>
    obtain ⟨c, x⟩ := p
    simp only [Mem.canonFrom, Bool.and_eq_true, decide_eq_true_eq] at w
    simp only [Mem.wr]
    split
    · rename_i hac
      split
      · split
        · subst b
          have : ¬ c = a := by omega
          simp only [Mem.rd, this, if_false]
          rename_i hv
          rw [Mem.rd_below w.2 (by omega), hv]
        · rfl
      · simp only [Mem.rd]
        by_cases e : a = b
        · simp [e]
        · have e' : ¬ b = a := fun h => e h.symm
          simp [e, e']
    · split
      · subst c
        split
        · split
          · subst b
            rename_i hv
            rw [Mem.rd_below w.2 (by omega), hv]
          · rename_i e
            have e' : ¬ a = b := fun h => e h.symm
            simp [Mem.rd, e']
        · simp only [Mem.rd]
          by_cases e : a = b
          · simp [e]
          · have e' : ¬ b = a := fun h => e h.symm
            simp [e, e']
      · simp only [Mem.rd]
        split
        · have : ¬ b = a := by omega
          simp [this]
        · exact ih w.2

theorem Mem.rd_wr {m : Mem} (w : Memory.wf m = true) (a b : Nat) (v : Byte) :
    Mem.rd (Mem.wr m a v) b = if b = a then v else Mem.rd m b := Mem.rd_wr_from v w b

/-- A byte that a filter keeps or drops. -/
theorem Mem.rd_filter (f : Nat → Bool) (m : Mem) (a : Nat) :
    Mem.rd (m.filter (fun c => f c.1)) a = if f a then Mem.rd m a else 0 := by
  induction m with
  | nil => simp [Mem.rd]
  | cons p t ih =>
    obtain ⟨b, v⟩ := p
    by_cases e : b = a
    · subst e
      by_cases h : f b = true
      · simp [List.filter, h, Mem.rd]
      · simp only [Bool.not_eq_true] at h
        simp only [List.filter, h, ih]
        simp
    · by_cases h : f b = true
      · simp only [List.filter, h, Mem.rd, e, if_false, ih]
      · simp only [Bool.not_eq_true] at h
        simp only [List.filter, h, ih, Mem.rd, e, if_false]

@[simp] theorem Mem.length_bytes (m : Mem) (a n : Nat) : (Mem.bytes m a n).length = n := by
  induction n generalizing a with
  | zero => rfl
  | succ n ih => simp [Mem.bytes, ih]

@[simp] theorem length_leBytes (n v : Nat) : (leBytes n v).length = n := by
  induction n generalizing v with
  | zero => rfl
  | succ n ih => simp [leBytes, ih]

/-- R8: bytes of a number, least significant first, give the number back. -/
theorem leNat_leBytes (n v : Nat) : leNat (leBytes n v) = v % 2 ^ (8 * n) := by
  induction n generalizing v with
  | zero => simp [leBytes, leNat, Nat.mod_one]
  | succ n ih =>
    simp only [leBytes, leNat, ih, BitVec.toNat_ofNat]
    have e : 2 ^ (8 * (n + 1)) = 256 * 2 ^ (8 * n) := by rw [Nat.mul_add, Nat.pow_add]; omega
    rw [e, Nat.mod_mul]

end Sys2Proof.Machine
end

