-- ==== Sys2Proof/Laws/MemWf.lean ====
section
/-!
SUPPORT. The shared operations keep every memory of the pod in canonical form: one lemma for each, cited by its callers.
-/

namespace Sys2Proof.Machine

-- parts of the pod

theorem Core.memWf_empty : ({} : Core).memWf := ⟨rfl, by simp⟩

/-- A core with the same scratchpad and FIFOs. -/
theorem Core.memWf_congr {c d : Core} (hs : d.spad = c.spad) (hf : d.fifos = c.fifos) (h : c.memWf) : d.memWf := by
  unfold Core.memWf; rw [hs, hf]; exact h

/-- A state with the same memory, cores and frame. -/
theorem State.memWf_congr {s t : State} (hm : t.mem = s.mem) (hc : t.cores = s.cores) (hf : t.frame.spad = s.frame.spad) (h : s.memWf) :
    t.memWf := by
  unfold State.memWf; rw [hm, hc, hf]; exact h

theorem State.core_memWf {s : State} (h : s.memWf) (ck : Nat) : (s.core ck).memWf := by
  unfold State.core
  rw [Tbl.get_eq]
  cases e : s.cores.find ck with
  | none => exact Core.memWf_empty
  | some c => exact h.2.1 _ (Tbl.mem_of_find e)

theorem State.setCore_memWf {s : State} {ck : Nat} {c : Core} (h : s.memWf) (hc : c.memWf) : (s.setCore ck c).memWf := by
  refine ⟨h.1, fun p hp => ?_, h.2.2⟩
  rcases Tbl.mem_set hp with e | m
  · subst e; exact hc
  · exact h.2.1 p m

theorem State.modCore_memWf {s : State} {ck : Nat} {f : Core → Core} (h : s.memWf) (hf : ∀ c : Core, c.memWf → (f c).memWf) :
    (s.modCore ck f).memWf := State.setCore_memWf h (hf _ (State.core_memWf h ck))

/-- A change of a core that leaves its scratchpad and its FIFOs. -/
theorem State.modCore_memWf_same {s : State} {ck : Nat} {f : Core → Core} (h : s.memWf) (hs : ∀ c : Core, (f c).spad = c.spad)
    (hf : ∀ c : Core, (f c).fifos = c.fifos) : (s.modCore ck f).memWf :=
  State.modCore_memWf h (fun c w => Core.memWf_congr (hs c) (hf c) w)

/-- Every core changed by a function that leaves scratchpads and FIFOs. -/
theorem State.mapCores_memWf {s t : State} (f : Nat × Core → Nat × Core) (h : s.memWf) (hm : t.mem = s.mem) (hc : t.cores = s.cores.map f)
    (hf : t.frame.spad = s.frame.spad) (hs : ∀ p, (f p).2.spad = p.2.spad) (hfi : ∀ p, (f p).2.fifos = p.2.fifos) : t.memWf := by
  refine ⟨by rw [hm]; exact h.1, fun p hp => ?_, by rw [hf]; exact h.2.2⟩
  rw [hc] at hp
  obtain ⟨q, hq, rfl⟩ := List.mem_map.1 hp
  exact Core.memWf_congr (hs q) (hfi q) (h.2.1 q hq)

theorem State.setCtx_memWf {s : State} (ck x : Nat) (k : Ctx) (h : s.memWf) : (s.setCtx ck x k).memWf :=
  State.setCore_memWf h (Core.memWf_congr rfl rfl (State.core_memWf h ck))

theorem State.modCtx_memWf {s : State} (ck x : Nat) (f : Ctx → Ctx) (h : s.memWf) : (s.modCtx ck x f).memWf := State.setCtx_memWf ck x _ h

theorem State.modArch_memWf {s : State} (ck x : Nat) (f : Arch → Arch) (h : s.memWf) : (s.modArch ck x f).memWf :=
  State.modCtx_memWf ck x _ h

theorem State.setEng_memWf {s : State} (ck x n : Nat) (e : EngCtx) (h : s.memWf) : (s.setEng ck x n e).memWf := State.modCtx_memWf ck x _ h

theorem State.setDie_memWf {s : State} (dk : Nat) (d : Die) (h : s.memWf) : (s.setDie dk d).memWf := h
theorem State.modDie_memWf {s : State} (dk : Nat) (f : Die → Die) (h : s.memWf) : (s.modDie dk f).memWf := h
theorem State.setPkg_memWf {s : State} (p : Nat) (k : Pkg) (h : s.memWf) : (s.setPkg p k).memWf := h
theorem State.modPkg_memWf {s : State} (p : Nat) (f : Pkg → Pkg) (h : s.memWf) : (s.modPkg p f).memWf := h
theorem State.modLaunch_memWf {s : State} (n : Nat) (f : Launch → Launch) (h : s.memWf) : (s.modLaunch n f).memWf := h
theorem State.count_memWf {s : State} (p off : Nat) (h : s.memWf) : (s.count p off).memWf := h
theorem State.countBy_memWf {s : State} (p off n : Nat) (h : s.memWf) : (s.countBy p off n).memWf := h
theorem State.countCore_memWf {s : State} (ck off : Nat) (h : s.memWf) : (s.countCore ck off).memWf := h
theorem State.event_memWf {s : State} (p code source detail : Nat) (h : s.memWf) : (s.event p code source detail).memWf := h

/-- Whatever keeps the form at each step of a list keeps it over the list. -/
theorem State.foldl_memWf {α : Type} (f : State → α → State) (hf : ∀ s a, s.memWf → (f s a).memWf) (l : List α) {s : State} (h : s.memWf) :
    (l.foldl f s).memWf := by
  induction l generalizing s with
  | nil => exact h
  | cons a t ih => exact ih (hf s a h)

/-- Whichever of two canonical states a condition chooses. -/
theorem State.ite_memWf {c : Prop} [Decidable c] {a b : State} (ha : a.memWf) (hb : b.memWf) : (if c then a else b).memWf := by
  split <;> assumption

theorem State.reset_memWf : State.reset.memWf := ⟨rfl, by simp [State.reset], rfl⟩

-- ready flags

theorem noteFlag_memWf {s : State} (ck x off n : Nat) (h : s.memWf) : (noteFlag s ck x off n).memWf :=
  State.ite_memWf h (State.modCtx_memWf _ _ _ h)

theorem noteCommitted_memWf {s : State} (k w : Nat) (h : s.memWf) : (noteCommitted s k w).memWf := by
  unfold noteCommitted
  dsimp only
  split
  · exact State.setCore_memWf h (Core.memWf_congr rfl rfl (State.core_memWf h k))
  · exact h

theorem noteCells_memWf {s : State} (p : Place) (l : List Host.Cell) (h : s.memWf) : (noteCells s p l).memWf := by
  unfold noteCells
  split
  · exact State.foldl_memWf _ (fun s w hs => noteCommitted_memWf _ w hs) _ h
  · exact h

-- writes

theorem clearMarks_memWf {s : State} (p : Place) (n : Nat) (h : s.memWf) : (clearMarks s p n).memWf := by
  cases p with
  | spad c o => exact State.modCore_memWf_same h (fun _ => rfl) (fun _ => rfl)
  | hbm a => exact h
  | host k q a => exact h

theorem State.writePlace_memWf {s : State} (p : Place) (bs : List Byte) (h : s.memWf) : (s.writePlace p bs).memWf := by
  cases p with
  | spad c o => exact State.modCore_memWf h (fun k w => ⟨Memory.wf_put _ _ w.1, w.2⟩)
  | hbm a => exact ⟨Memory.wf_put _ _ h.1, h.2⟩
  | host k q a => exact ⟨Memory.wf_put _ _ h.1, h.2⟩

theorem State.perform_memWf {s : State} (p : Place) (bs : List Byte) (h : s.memWf) : (s.perform p bs).memWf :=
  State.writePlace_memWf p bs (clearMarks_memWf p _ h)

theorem State.putCells_memWf (p : Place) (l : List Host.Cell) {s : State} (h : s.memWf) : (s.putCells p l).memWf := by
  induction l generalizing s with
  | nil => exact h
  | cons a t ih => exact ih (State.writePlace_memWf _ _ h)

theorem clearCells_memWf {s : State} (p : Place) (l : List Host.Cell) (h : s.memWf) : (clearCells s p l).memWf := by
  cases p with
  | spad c o => exact State.modCore_memWf_same h (fun _ => rfl) (fun _ => rfl)
  | hbm a => exact h
  | host k q a => exact h

theorem State.performCells_memWf (p : Place) (l : List Host.Cell) {s : State} (h : s.memWf) : (s.performCells p l).memWf :=
  clearCells_memWf p l (State.putCells_memWf p l h)

theorem raceLog_memWf {s : State} (fa : Nat) (store : Bool) (ck x shadow : Nat) (h : s.memWf) : (raceLog s fa store ck x shadow).memWf := by
  unfold raceLog
  dsimp only
  split
  · exact h
  · exact State.count_memWf _ _ (State.perform_memWf _ _ (State.perform_memWf _ _ h))

theorem raceCheck_memWf {s : State} (ck x fa mode : Nat) (store : Option Nat) (h : s.memWf) :
    (raceCheck s ck x fa mode store).1.memWf := by
  have h1 (c : Prop) [Decidable c] (w : Nat) : (if c then raceLog s fa store.isSome ck x w else s).memWf :=
    State.ite_memWf (raceLog_memWf _ _ _ _ _ h) h
  unfold raceCheck
  dsimp only
  split
  · exact State.perform_memWf _ _ (h1 _ _)
  · exact h1 _ _

/-- What keeps the form at each step of a list with a flag keeps it over the list. -/
theorem State.foldlFlag_memWf {α : Type} (f : State × Bool → α → State × Bool) (hf : ∀ r a, r.1.memWf → (f r a).1.memWf) (l : List α)
    {r : State × Bool} (h : r.1.memWf) : (l.foldl f r).1.memWf := by
  induction l generalizing r with
  | nil => exact h
  | cons a t ih => exact ih (hf r a h)

theorem raceRead_memWf {s : State} (ck x fa n mode : Nat) (h : s.memWf) : (raceRead s ck x fa n mode).1.memWf := by
  unfold raceRead
  refine State.foldlFlag_memWf _ (fun r i hr => ?_) _ h
  dsimp only
  exact raceCheck_memWf _ _ _ _ _ hr

-- lines of L2 and the MSC

theorem dropShared_memWf {s : State} (lines : List Nat) (keep : Option Nat) (h : s.memWf) : (dropShared s lines keep).memWf := h

theorem mscTouch_memWf {s : State} (line rd : Nat) (h : s.memWf) : (mscTouch s line rd).memWf :=
  State.ite_memWf (State.modDie_memWf _ _ h) (State.ite_memWf h (State.modDie_memWf _ _ (dropShared_memWf _ _ h)))

theorem mscRange_memWf {s : State} (fa n rd : Nat) (h : s.memWf) : (mscRange s fa n rd).memWf :=
  State.foldl_memWf _ (fun _ _ hs => mscTouch_memWf _ _ hs) _ h

theorem l2Read_memWf {s : State} (dk : Nat) (t : Target) (fa n rd : Nat) (h : s.memWf) : (l2Read s dk t fa n rd).1.memWf := by
  unfold l2Read
  split
  · split
    · exact State.modDie_memWf _ _ h
    · exact State.ite_memWf (mscTouch_memWf _ _ h) (State.modDie_memWf _ _ (mscTouch_memWf _ _ h))
  · exact mscTouch_memWf _ _ h

theorem clearShadow_memWf (fa : Nat) (l : List Nat) {s : State} (h : s.memWf) : (clearShadow s fa l).memWf := by
  induction l generalizing s with
  | nil => exact h
  | cons i t ih => exact ih (State.perform_memWf _ _ h)

theorem State.engPerform_memWf {s : State} (t : Target) (bs : List Byte) (h : s.memWf) : (s.engPerform t bs).memWf := by
  unfold State.engPerform
  split
  · dsimp only
    split
    · exact State.perform_memWf _ _ (mscRange_memWf _ _ _ (dropShared_memWf _ _ h))
    · exact clearShadow_memWf _ _ (State.perform_memWf _ _ (mscRange_memWf _ _ _ (dropShared_memWf _ _ h)))
  · exact State.perform_memWf _ _ h

theorem procWritePieces_memWf (pkg pasid : Nat) (l : List (Nat × Nat)) {s : State} (bs : List Byte) (h : s.memWf) :
    (procWritePieces s pkg pasid l bs).1.memWf := by
  induction l generalizing s bs with
  | nil => exact h
  | cons p t ih =>
    unfold procWritePieces
    split
    · exact ih _ (State.engPerform_memWf _ _ h)
    · exact ih _ h
    · exact h

theorem queueError_memWf {s : State} (p q err : Nat) (h : s.memWf) : (queueError s p q err).memWf :=
  State.modPkg_memWf _ _ (State.perform_memWf _ _ (State.perform_memWf _ _ h))

theorem devWritten_memWf {s : State} (pkg : Nat) (queue : Option Nat) (sig : Bool) (fault : Nat) (h : s.memWf) :
    (devWritten s pkg queue sig fault).memWf := by
  cases queue with
  | none => exact h
  | some q => exact State.ite_memWf (queueError_memWf _ _ _ h) (State.ite_memWf (State.modPkg_memWf _ _ h) h)

theorem devAttempt_memWf {s : State} (w : DevWrite) (h : s.memWf) : (devAttempt s w).1.memWf := by
  have h1 := procWritePieces_memWf w.pkg w.pasid (blockPieces w.va w.bytes.length) w.bytes h
  unfold devAttempt
  dsimp only
  split
  · exact devWritten_memWf _ _ _ _ h1
  · split
    · exact h1
    · exact devWritten_memWf _ _ _ _ h1

theorem procWrite_memWf {s : State} (pkg pasid a : Nat) (bs : List Byte) (queue : Option Nat) (sig : Bool) (h : s.memWf) :
    (procWrite s pkg pasid a bs queue sig).memWf := by
  unfold procWrite
  have h1 := devAttempt_memWf { pkg := pkg, pasid := pasid, va := a, bytes := bs, due := s.tick + Config.resendTicks, queue := queue, sig := sig } h
  revert h1
  dsimp only
  generalize devAttempt s _ = r
  intro h1
  split
  · exact h
  · split
    · exact h1
    · exact h1

theorem State.devWrite_memWf {s : State} (pkg pasid a : Nat) (bs : List Byte) (h : s.memWf) : (s.devWrite pkg pasid a bs).memWf :=
  procWrite_memWf _ _ _ _ _ _ h

theorem devRetry_memWf {s : State} (i : Nat) (h : s.memWf) : (devRetry s i).memWf := by
  unfold devRetry
  split
  · exact h
  · split
    · exact h
    · exact State.memWf_congr rfl rfl rfl (devAttempt_memWf _ h)

theorem writeParts_memWf (pkg pasid base : Nat) (l : List (Nat × List Byte)) {s : State} (h : s.memWf) :
    (writeParts s pkg pasid base l).memWf := by
  induction l generalizing s with
  | nil => exact h
  | cons p t ih => exact ih (State.devWrite_memWf _ _ _ _ h)

theorem clearRange_memWf (pkg pasid : Nat) (l : List (Nat × Nat)) {s : State} (h : s.memWf) : (clearRange s pkg pasid l).memWf := by
  induction l generalizing s with
  | nil => exact h
  | cons p t ih =>
    unfold clearRange
    split
    · exact ih (State.ite_memWf (State.devWrite_memWf _ _ _ _ h) (clearMarks_memWf _ _ ⟨Memory.wf_filter _ h.1, h.2⟩))
    · exact ih (State.devWrite_memWf _ _ _ _ h)
    · exact ih h

theorem writeSaveArea_memWf {s : State} (ck x : Nat) (tcause : Word) (h : s.memWf) : (writeSaveArea s ck x tcause).memWf :=
  writeParts_memWf _ _ _ _ (clearRange_memWf _ _ _ h)

-- L1

theorem State.l1Drop_memWf {s : State} (ck line : Nat) (h : s.memWf) : (s.l1Drop ck line).memWf :=
  State.modCore_memWf_same h (fun _ => rfl) (fun _ => rfl)

theorem State.l1Flush_memWf {s : State} (ck : Nat) (h : s.memWf) : (s.l1Flush ck).memWf := by
  unfold State.l1Flush
  refine State.foldl_memWf _ (fun _ _ hs => ?_) _ h
  exact State.modCore_memWf_same hs (fun _ => rfl) (fun _ => rfl)

-- drains and checkpoints

theorem State.handStore_memWf {s : State} (ck : Nat) (st : Store) (h : s.memWf) : (s.handStore ck st).memWf := by
  unfold State.handStore
  dsimp only
  split
  · exact State.l1Drop_memWf _ _ (State.modCore_memWf_same h (fun _ => rfl) (fun _ => rfl))
  · exact State.modCore_memWf_same h (fun _ => rfl) (fun _ => rfl)

theorem handEntry_memWf (ck x rd : Nat) (l : List (Target × Nat)) {s : State} (bs : List Byte) (h : s.memWf) :
    (handEntry s ck x rd l bs).memWf := by
  induction l generalizing s bs with
  | nil => exact h
  | cons p t ih =>
    unfold handEntry
    refine ih _ ?_
    split
    · exact State.ite_memWf (State.perform_memWf _ _ h) (State.handStore_memWf _ _ h)
    · exact State.handStore_memWf _ _ h

/-- R347: using a translation changes micro-TLBs and die TLBs only. -/
theorem tlbUse_memWf {s : State} (ck x va : Nat) (micro : Bool) (h : s.memWf) : (tlbUse s ck x va micro).memWf := by
  have hm (t : TlbEntry) (u : State) (hu : u.memWf) : (if micro then u.modCore ck (fun c => { c with tlb := tlbFill Config.microTlb t c.tlb })
      else u).memWf := State.ite_memWf (State.modCore_memWf_same hu (fun _ => rfl) (fun _ => rfl)) hu
  unfold tlbUse
  dsimp only
  repeat' split
  all_goals first
    | exact h
    | exact hm _ _ h
    | exact hm _ _ (State.modDie_memWf _ _ h)
    | exact State.modDie_memWf _ _ h
    | exact State.modCore_memWf_same h (fun _ => rfl) (fun _ => rfl)

theorem tlbRanges_memWf {s : State} (ck x : Nat) (l : List (Nat × Nat)) (h : s.memWf) : (tlbRanges s ck x l).memWf :=
  State.foldl_memWf _ (fun _ _ hs => tlbUse_memWf _ _ _ _ hs) _ h

theorem drainEntry_memWf {s : State} (ck x : Nat) (h : s.memWf) : (drainEntry s ck x).memWf := by
  unfold drainEntry
  split
  · exact h
  · exact State.handStore_memWf _ _ (State.modCtx_memWf _ _ _ h)
  · dsimp only
    split
    · exact State.modCtx_memWf _ _ _ h
    · split
      · exact h
      · exact State.modCtx_memWf _ _ _ h
      · exact handEntry_memWf _ _ _ _ _ (tlbRanges_memWf _ _ _ (State.modCtx_memWf _ _ _ h))

theorem drainEntries_memWf (n : Nat) {s : State} (ck x : Nat) (h : s.memWf) : (drainEntries n s ck x).memWf := by
  induction n generalizing s with
  | zero => exact h
  | succ n ih => exact ih (drainEntry_memWf _ _ h)

theorem handOver_memWf {s : State} (ck x : Nat) (h : s.memWf) : (handOver s ck x).memWf :=
  drainEntries_memWf _ _ _ (State.modCtx_memWf _ _ _ (State.modCore_memWf_same h (fun _ => rfl) (fun _ => rfl)))

theorem checkpoint_memWf {s : State} (ck x : Nat) (h : s.memWf) : (checkpoint s ck x).memWf :=
  State.modCtx_memWf _ _ _ (State.modCore_memWf_same (handOver_memWf ck x h) (fun _ => rfl) (fun _ => rfl))

theorem forcedCheckpoint_memWf {s : State} (ck x : Nat) (h : s.memWf) : (forcedCheckpoint s ck x).memWf := checkpoint_memWf ck x h

theorem refetch_memWf {s : State} (ck x : Nat) (h : s.memWf) : (refetch s ck x).memWf := State.modCtx_memWf _ _ _ h

theorem State.ordered_memWf {s : State} (ck x sc gen : Nat) (h : s.memWf) : (s.ordered ck x sc gen).memWf := State.modCtx_memWf _ _ _ h

/-- R253: what a context acquires marks stores that are in flight. -/
theorem observe_memWf {s : State} (ck x : Nat) (h : s.memWf) : (observe s ck x).memWf := by
  unfold observe
  exact State.modDie_memWf _ _ (State.modCore_memWf_same h (fun _ => rfl) (fun _ => rfl))

theorem acquire_memWf {s : State} (ck x sc : Nat) (e : Scope) (h : s.memWf) : (acquire s ck x sc e).memWf :=
  State.ite_memWf (State.modDie_memWf _ _ (observe_memWf _ _ (refetch_memWf _ _ (State.ordered_memWf _ _ _ _ h))))
    (observe_memWf _ _ (refetch_memWf _ _ (State.ordered_memWf _ _ _ _ h)))

theorem rollback_memWf {s : State} (ck x : Nat) (h : s.memWf) : (rollback s ck x).memWf :=
  State.modCore_memWf_same h (fun _ => rfl) (fun _ => rfl)

theorem withdraw_memWf {s : State} (ck x : Nat) (h : s.memWf) : (withdraw s ck x).memWf :=
  State.mapCores_memWf _ h rfl rfl rfl (fun _ => rfl) (fun _ => rfl)

-- leaving, ending

theorem leave_memWf {s : State} (ck x : Nat) (h : s.memWf) : (leave s ck x).memWf :=
  State.modDie_memWf _ _ (State.modCore_memWf_same (withdraw_memWf (s := reportSaved s ck x) ck x h) (fun _ => rfl) (fun _ => rfl))

theorem pushReady_memWf {s : State} (launch dk slot : Nat) (h : s.memWf) : (pushReady s launch dk slot).memWf := h

theorem sigWrite_memWf {s : State} (p : Nat) (c : QCmd) (h : s.memWf) : (sigWrite s p c).memWf :=
  State.ite_memWf h (procWrite_memWf _ _ _ _ _ _ h)

theorem State.modCmd_memWf {s : State} (ck x n num : Nat) (f : EngCmd → EngCmd) (h : s.memWf) : (s.modCmd ck x n num f).memWf :=
  State.modCtx_memWf _ _ _ h

theorem failCmd_memWf {s : State} (ck x n num code kind : Nat) (h : s.memWf) : (failCmd s ck x n num code kind).memWf :=
  State.modCmd_memWf _ _ _ _ _ h

theorem strikeCmds_memWf {s : State} (t : Ltx) (h : s.memWf) : (strikeCmds s t).memWf :=
  State.foldl_memWf _ (fun _ _ hs => State.modCtx_memWf _ _ _ hs) _ h

theorem writeStateWord_memWf {s : State} (t : Ltx) (v : Nat) (h : s.memWf) : (writeStateWord s t v).memWf := by
  unfold writeStateWord
  split
  · exact State.ite_memWf (State.performCells_memWf _ _ h) h
  · exact State.devWrite_memWf _ _ _ _ h

theorem ltxAbort_memWf {s : State} (t : Ltx) (cause die : Nat) (h : s.memWf) : (ltxAbort s t cause die).memWf :=
  writeStateWord_memWf _ _ (State.memWf_congr rfl rfl rfl (strikeCmds_memWf t h))

theorem releaseWindow_memWf {s : State} (w : Window) (h : s.memWf) : (releaseWindow s w).memWf := by
  unfold releaseWindow
  refine State.foldl_memWf _ (fun s c hs => ?_) _ (State.mapCores_memWf _ h rfl rfl rfl (fun _ => rfl) (fun _ => rfl))
  split
  · exact failCmd_memWf _ _ _ _ _ _ hs
  · exact hs

theorem releaseLaunchHolds_memWf {s : State} (id : Nat) (h : s.memWf) : (releaseLaunchHolds s id).memWf := by
  have h1 := State.foldl_memWf releaseWindow (fun _ w hs => releaseWindow_memWf w hs) (s.windows.filter (fun w => w.launch == id)) h
  have h2 := State.foldl_memWf (fun s t => ltxAbort s t 6 0) (fun _ t hs => ltxAbort_memWf t 6 0 hs)
    (((s.windows.filter (fun w => w.launch == id)).foldl releaseWindow s).ltxs.filter (fun t => t.launch == id && t.state == 0)) h1
  exact State.memWf_congr rfl rfl rfl h2

theorem reportLaunch_memWf {s : State} (l : Launch) (status : Nat) (r : Bool) (h : s.memWf) : (reportLaunch s l status r).memWf :=
  sigWrite_memWf _ _ (State.ite_memWf (procWrite_memWf _ _ _ _ _ _ h) h)

theorem endLaunch_memWf {s : State} (id status : Nat) (h : s.memWf) : (endLaunch s id status).memWf := by
  unfold endLaunch
  split
  · exact h
  · dsimp only
    refine State.mapCores_memWf (fun p => (p.1, coreForget id p.2)) (State.foldl_memWf (fun s c => sigWrite s _ c)
      (fun _ c hs => sigWrite_memWf _ c hs) _ (reportLaunch_memWf _ _ _ (releaseLaunchHolds_memWf id h))) rfl rfl rfl (fun _ => rfl)
      (fun _ => rfl)

theorem launchDone_memWf {s : State} (id : Nat) (h : s.memWf) : (launchDone s id).memWf := by
  unfold launchDone
  split
  · split
    · exact endLaunch_memWf _ _ h
    · exact h
  · exact h

-- coming to rest, traps

theorem stopCtx_memWf {s : State} (ck x : Nat) (r : RestInfo) (h : s.memWf) : (stopCtx s ck x r).memWf :=
  State.modCtx_memWf _ _ _ (State.modCtx_memWf _ _ _ (State.modDie_memWf _ _ (withdraw_memWf ck x (rollback_memWf ck x h))))

theorem abortDone_memWf {s : State} (id : Nat) (h : s.memWf) : (abortDone s id).memWf := by
  unfold abortDone
  split
  · split
    · split
      · exact h
      · exact endLaunch_memWf _ _ h
    · exact h
  · exact h

theorem abortLaunch_memWf {s : State} (id status : Nat) (h : s.memWf) : (abortLaunch s id status).memWf := by
  unfold abortLaunch
  refine abortDone_memWf id (State.foldl_memWf _ (fun s m hs => ?_) _ (State.foldl_memWf _ (fun s t hs => ltxAbort_memWf t 3 0 hs) _
    (State.foldl_memWf _ (fun s m hs => ?_) _ (State.modLaunch_memWf _ _ h))))
  · split
    · exact leave_memWf _ _ hs
    · exact hs
  · dsimp only
    refine State.modCtx_memWf _ _ _ ?_
    split
    · exact State.modCtx_memWf _ _ _ hs
    · exact stopCtx_memWf _ _ _ hs

theorem trapPolicy_memWf {s : State} (ck x cause : Nat) (l : Launch) (h : s.memWf) : (trapPolicy s ck x cause l).memWf := by
  unfold trapPolicy
  dsimp only
  split
  · exact abortLaunch_memWf _ _ h
  · split
    · exact pushReady_memWf _ _ _ (leave_memWf _ _ (State.devWrite_memWf _ _ _ _ h))
    · exact leave_memWf _ _ h

theorem finishLeave_memWf {s : State} (ck x : Nat) (r : RestInfo) (l : Launch) (h : s.memWf) : (finishLeave s ck x r l).memWf := by
  unfold finishLeave
  dsimp only
  split
  · exact launchDone_memWf _ (State.modLaunch_memWf _ _ (State.modCtx_memWf _ _ _ (leave_memWf _ _ h)))
  · exact State.ite_memWf (pushReady_memWf _ _ _ (leave_memWf _ _ (State.devWrite_memWf _ _ _ _ h))) (leave_memWf _ _ (State.devWrite_memWf _ _ _ _ h))

theorem finishRest_memWf {s : State} (ck x : Nat) (h : s.memWf) : (finishRest s ck x).memWf := by
  unfold finishRest
  dsimp only
  split
  · refine State.ite_memWf (abortDone_memWf _ (leave_memWf _ _ h)) (State.ite_memWf (finishLeave_memWf _ _ _ _ h) ?_)
    have h1 (p : Prop) [Decidable p] (l : List Ltx) : (if p then l.foldl (fun s t => ltxAbort s t 3 0) s else s).memWf :=
      State.ite_memWf (State.foldl_memWf _ (fun s t hs => ltxAbort_memWf t 3 0 hs) _ h) h
    exact State.ite_memWf (trapPolicy_memWf _ _ _ _ (State.count_memWf _ _ (State.devWrite_memWf _ _ _ _ (writeSaveArea_memWf _ _ _ (h1 _ _)))))
      (State.count_memWf _ _ (leave_memWf _ _ (State.devWrite_memWf _ _ _ _ (writeSaveArea_memWf _ _ _ (h1 _ _)))))
  · exact leave_memWf _ _ h
  · exact h

theorem settle_memWf {s : State} (ck x : Nat) (h : s.memWf) : (settle s ck x).memWf := by
  unfold settle
  split
  · exact finishRest_memWf _ _ h
  · exact h

theorem takeTrap_memWf {s : State} (ck x cause pc code : Nat) (h : s.memWf) : (takeTrap s ck x cause pc code).memWf :=
  settle_memWf _ _ (stopCtx_memWf _ _ _ h)

theorem trapResting_memWf {s : State} (ck x cause pc : Nat) (h : s.memWf) : (trapResting s ck x cause pc).memWf :=
  State.ite_memWf (settle_memWf _ _ h) (takeTrap_memWf _ _ _ _ _ h)

theorem preemptCtx_memWf {s : State} (ck x : Nat) (h : s.memWf) : (preemptCtx s ck x).memWf := by
  unfold preemptCtx
  dsimp only
  split
  · exact takeTrap_memWf _ _ _ _ _ h
  · exact settle_memWf _ _ (stopCtx_memWf _ _ _ h)

-- the frame

/-- A state that differs in the frame only, with a canonical scratchpad in it. -/
theorem State.frame_memWf {s : State} (f : Frame) (hf : Memory.wf f.spad = true) (h : s.memWf) : ({ s with frame := f } : State).memWf :=
  ⟨h.1, h.2.1, hf⟩

theorem State.trapFrame_memWf {s : State} (cause code : Nat) (h : s.memWf) : (s.trapFrame cause code).memWf :=
  State.frame_memWf _ h.2.2 (takeTrap_memWf _ _ _ _ _ h)

theorem State.blockFrame_memWf {s : State} (w : Wait) (h : s.memWf) : (s.blockFrame w).memWf :=
  State.frame_memWf _ h.2.2 (State.modCtx_memWf _ _ _ h)

theorem State.stallFrame_memWf {s : State} (h : s.memWf) : s.stallFrame.memWf :=
  State.frame_memWf _ h.2.2 (State.modCtx_memWf _ _ _ h)

/-- An outcome that is a next state has canonical memories. -/
def OutWf (o : Out) : Prop := ∀ t, o = .next t → t.memWf

theorem OutWf.next {t : State} (h : t.memWf) : OutWf (.next t) := fun u e => by
  simp only [Host.Outcome.next.injEq] at e; subst e; exact h

theorem OutWf.fault (r : Fault) : OutWf (.fault r) := fun _ e => nomatch e

theorem OutWf.refused (r : Refusal) : OutWf (.refused r) := fun _ e => nomatch e

theorem OutWf.ite {c : Prop} [Decidable c] {a b : Out} (ha : OutWf a) (hb : OutWf b) : OutWf (if c then a else b) := by
  split <;> assumption

/-- A form behind its gate keeps the form of memories if what it does keeps it. -/
theorem OutWf.behind {g : Gate} {s : State} {go : State → State} (h : s.memWf) (hgo : ∀ u, u.memWf → (go u).memWf) : OutWf (behind g s go) := by
  unfold Machine.behind
  split
  · exact .next (hgo _ h)
  · exact .next (State.trapFrame_memWf _ _ h)
  · exact .next (State.modCtx_memWf _ _ _ (State.stallFrame_memWf h))
  · exact .next (State.stallFrame_memWf h)
  · exact .next (State.blockFrame_memWf _ h)

/-- A state made of the memory, the cores and the frame of another. -/
theorem State.mk_memWf (t : State) (tick : Nat) (pkgs dies poison launches nextLaunch windows ltxs colls collSeq waiters devHeld ev agenda focus free) :
    (State.mk tick pkgs dies t.cores t.mem poison launches nextLaunch windows ltxs colls collSeq waiters devHeld t.frame ev agenda focus free).memWf =
      t.memWf := rfl

/-- Memory and cores are canonical, whatever the frame. -/
def State.storesWf (s : State) : Prop := Memory.wf s.mem = true ∧ ∀ p ∈ s.cores, p.2.memWf

theorem State.storesWf_of {s : State} (h : s.memWf) : s.storesWf := ⟨h.1, h.2.1⟩

/-- The scratchpad in the frame of a canonical state. -/
theorem State.frame_wf {s : State} (h : s.memWf) : Memory.wf s.frame.spad = true := h.2.2

/-- The same with another frame. -/
theorem State.mk_frame_memWf (t : State) (f : Frame) (tick : Nat)
    (pkgs dies poison launches nextLaunch windows ltxs colls collSeq waiters devHeld ev agenda focus free) :
    (State.mk tick pkgs dies t.cores t.mem poison launches nextLaunch windows ltxs colls collSeq waiters devHeld f ev agenda focus free).memWf =
      (t.storesWf ∧ Memory.wf f.spad = true) := by
  simp [State.memWf, State.storesWf, and_assoc]

end Sys2Proof.Machine
end

