-- ==== Sys2Proof/Laws/PerInstr.lean ====
section
/-!
SUPPORT. Statements about every instruction as syntax, one lemma for each constructor: the encoder's word fits the instruction's slot.
-/

namespace Sys2Proof.Laws.EncodingFits

/-- The word of an instruction fits its slot: 64 bits for a group-table entry, 32 bits for a syllable, nothing for a step. -/
def Statement (i : Instr) : Prop :=
  encode i < (match slotOf i with | .entry => 18446744073709551616 | .step => 1 | _ => 4294967296)

/-- The fields of an entry lie below OP. -/
theorem word_lt (e : Entry) (op : Nat) (h : op < 64) : e.word op < 18446744073709551616 := by
  have h1 := e.cls.isLt
  have h2 := e.fmt.isLt
  have h3 := e.d.isLt
  have h4 := e.a.isLt
  have h5 := e.b.isLt
  have h6 := e.c.isLt
  have h7 := e.mask.isLt
  have h8 := e.bank.isLt
  have h9 := e.mod.isLt
  simp only [Entry.word, put]
  omega

theorem nop : Statement .nop := show _ < _ by decide
theorem add (d : BitVec 5) (a : BitVec 5) (b : BitVec 5) : Statement (.add d a b) := by
  show 67108864 + put d 21 + put a 16 + put b 11 < 4294967296; have := d.isLt; have := a.isLt; have := b.isLt; simp only [put]; omega
theorem sub (d : BitVec 5) (a : BitVec 5) (b : BitVec 5) : Statement (.sub d a b) := by
  show 134217728 + put d 21 + put a 16 + put b 11 < 4294967296; have := d.isLt; have := a.isLt; have := b.isLt; simp only [put]; omega
theorem mul (d : BitVec 5) (a : BitVec 5) (b : BitVec 5) : Statement (.mul d a b) := by
  show 201326592 + put d 21 + put a 16 + put b 11 < 4294967296; have := d.isLt; have := a.isLt; have := b.isLt; simp only [put]; omega
theorem mulh (d : BitVec 5) (a : BitVec 5) (b : BitVec 5) : Statement (.mulh d a b) := by
  show 268435456 + put d 21 + put a 16 + put b 11 < 4294967296; have := d.isLt; have := a.isLt; have := b.isLt; simp only [put]; omega
theorem mulhn (d : BitVec 5) (a : BitVec 5) (b : BitVec 5) : Statement (.mulhn d a b) := by
  show 335544320 + put d 21 + put a 16 + put b 11 < 4294967296; have := d.isLt; have := a.isLt; have := b.isLt; simp only [put]; omega
theorem div (d : BitVec 5) (a : BitVec 5) (b : BitVec 5) : Statement (.div d a b) := by
  show 402653184 + put d 21 + put a 16 + put b 11 < 4294967296; have := d.isLt; have := a.isLt; have := b.isLt; simp only [put]; omega
theorem divn (d : BitVec 5) (a : BitVec 5) (b : BitVec 5) : Statement (.divn d a b) := by
  show 469762048 + put d 21 + put a 16 + put b 11 < 4294967296; have := d.isLt; have := a.isLt; have := b.isLt; simp only [put]; omega
theorem rem (d : BitVec 5) (a : BitVec 5) (b : BitVec 5) : Statement (.rem d a b) := by
  show 536870912 + put d 21 + put a 16 + put b 11 < 4294967296; have := d.isLt; have := a.isLt; have := b.isLt; simp only [put]; omega
theorem remn (d : BitVec 5) (a : BitVec 5) (b : BitVec 5) : Statement (.remn d a b) := by
  show 603979776 + put d 21 + put a 16 + put b 11 < 4294967296; have := d.isLt; have := a.isLt; have := b.isLt; simp only [put]; omega
theorem and (d : BitVec 5) (a : BitVec 5) (b : BitVec 5) : Statement (.and d a b) := by
  show 671088640 + put d 21 + put a 16 + put b 11 < 4294967296; have := d.isLt; have := a.isLt; have := b.isLt; simp only [put]; omega
theorem or (d : BitVec 5) (a : BitVec 5) (b : BitVec 5) : Statement (.or d a b) := by
  show 738197504 + put d 21 + put a 16 + put b 11 < 4294967296; have := d.isLt; have := a.isLt; have := b.isLt; simp only [put]; omega
theorem xor (d : BitVec 5) (a : BitVec 5) (b : BitVec 5) : Statement (.xor d a b) := by
  show 805306368 + put d 21 + put a 16 + put b 11 < 4294967296; have := d.isLt; have := a.isLt; have := b.isLt; simp only [put]; omega
theorem andn (d : BitVec 5) (a : BitVec 5) (b : BitVec 5) : Statement (.andn d a b) := by
  show 872415232 + put d 21 + put a 16 + put b 11 < 4294967296; have := d.isLt; have := a.isLt; have := b.isLt; simp only [put]; omega
theorem shl (d : BitVec 5) (a : BitVec 5) (b : BitVec 5) : Statement (.shl d a b) := by
  show 939524096 + put d 21 + put a 16 + put b 11 < 4294967296; have := d.isLt; have := a.isLt; have := b.isLt; simp only [put]; omega
theorem shrl (d : BitVec 5) (a : BitVec 5) (b : BitVec 5) : Statement (.shrl d a b) := by
  show 1006632960 + put d 21 + put a 16 + put b 11 < 4294967296; have := d.isLt; have := a.isLt; have := b.isLt; simp only [put]; omega
theorem shra (d : BitVec 5) (a : BitVec 5) (b : BitVec 5) : Statement (.shra d a b) := by
  show 1073741824 + put d 21 + put a 16 + put b 11 < 4294967296; have := d.isLt; have := a.isLt; have := b.isLt; simp only [put]; omega
theorem rotl (d : BitVec 5) (a : BitVec 5) (b : BitVec 5) : Statement (.rotl d a b) := by
  show 1140850688 + put d 21 + put a 16 + put b 11 < 4294967296; have := d.isLt; have := a.isLt; have := b.isLt; simp only [put]; omega
theorem min (d : BitVec 5) (a : BitVec 5) (b : BitVec 5) : Statement (.min d a b) := by
  show 1207959552 + put d 21 + put a 16 + put b 11 < 4294967296; have := d.isLt; have := a.isLt; have := b.isLt; simp only [put]; omega
theorem max (d : BitVec 5) (a : BitVec 5) (b : BitVec 5) : Statement (.max d a b) := by
  show 1275068416 + put d 21 + put a 16 + put b 11 < 4294967296; have := d.isLt; have := a.isLt; have := b.isLt; simp only [put]; omega
theorem minn (d : BitVec 5) (a : BitVec 5) (b : BitVec 5) : Statement (.minn d a b) := by
  show 1342177280 + put d 21 + put a 16 + put b 11 < 4294967296; have := d.isLt; have := a.isLt; have := b.isLt; simp only [put]; omega
theorem maxn (d : BitVec 5) (a : BitVec 5) (b : BitVec 5) : Statement (.maxn d a b) := by
  show 1409286144 + put d 21 + put a 16 + put b 11 < 4294967296; have := d.isLt; have := a.isLt; have := b.isLt; simp only [put]; omega
theorem clz (d : BitVec 5) (a : BitVec 5) : Statement (.clz d a) := by
  show 1476395008 + put d 21 + put a 16 < 4294967296; have := d.isLt; have := a.isLt; simp only [put]; omega
theorem ctz (d : BitVec 5) (a : BitVec 5) : Statement (.ctz d a) := by
  show 1543503872 + put d 21 + put a 16 < 4294967296; have := d.isLt; have := a.isLt; simp only [put]; omega
theorem popc (d : BitVec 5) (a : BitVec 5) : Statement (.popc d a) := by
  show 1610612736 + put d 21 + put a 16 < 4294967296; have := d.isLt; have := a.isLt; simp only [put]; omega
theorem addx (d : BitVec 5) (a : BitVec 5) (b : BitVec 5) (k : BitVec 3) (c : BitVec 3) : Statement (.addx d a b k c) := by
  show 1677721600 + put d 21 + put a 16 + put b 11 + put k 3 + put c 0 < 4294967296; have := d.isLt; have := a.isLt; have := b.isLt; have := k.isLt; have := c.isLt; simp only [put]; omega
theorem sel (d : BitVec 5) (a : BitVec 5) (b : BitVec 5) (c : BitVec 3) : Statement (.sel d a b c) := by
  show 1744830464 + put d 21 + put a 16 + put b 11 + put c 0 < 4294967296; have := d.isLt; have := a.isLt; have := b.isLt; have := c.isLt; simp only [put]; omega
theorem addi (d : BitVec 5) (a : BitVec 5) (i : BitVec 16) : Statement (.addi d a i) := by
  show 1811939328 + put d 21 + put a 16 + put i 0 < 4294967296; have := d.isLt; have := a.isLt; have := i.isLt; simp only [put]; omega
theorem andi (d : BitVec 5) (a : BitVec 5) (i : BitVec 16) : Statement (.andi d a i) := by
  show 1879048192 + put d 21 + put a 16 + put i 0 < 4294967296; have := d.isLt; have := a.isLt; have := i.isLt; simp only [put]; omega
theorem ori (d : BitVec 5) (a : BitVec 5) (i : BitVec 16) : Statement (.ori d a i) := by
  show 1946157056 + put d 21 + put a 16 + put i 0 < 4294967296; have := d.isLt; have := a.isLt; have := i.isLt; simp only [put]; omega
theorem xori (d : BitVec 5) (a : BitVec 5) (i : BitVec 16) : Statement (.xori d a i) := by
  show 2013265920 + put d 21 + put a 16 + put i 0 < 4294967296; have := d.isLt; have := a.isLt; have := i.isLt; simp only [put]; omega
theorem shli (d : BitVec 5) (a : BitVec 5) (i : BitVec 6) : Statement (.shli d a i) := by
  show 2080374784 + put d 21 + put a 16 + put i 0 < 4294967296; have := d.isLt; have := a.isLt; have := i.isLt; simp only [put]; omega
theorem shrli (d : BitVec 5) (a : BitVec 5) (i : BitVec 6) : Statement (.shrli d a i) := by
  show 2147483648 + put d 21 + put a 16 + put i 0 < 4294967296; have := d.isLt; have := a.isLt; have := i.isLt; simp only [put]; omega
theorem shrai (d : BitVec 5) (a : BitVec 5) (i : BitVec 6) : Statement (.shrai d a i) := by
  show 2214592512 + put d 21 + put a 16 + put i 0 < 4294967296; have := d.isLt; have := a.isLt; have := i.isLt; simp only [put]; omega
theorem li (d : BitVec 5) (i : BitVec 16) : Statement (.li d i) := by
  show 2281701376 + put d 21 + put i 0 < 4294967296; have := d.isLt; have := i.isLt; simp only [put]; omega
theorem lih (d : BitVec 5) (a : BitVec 5) (i : BitVec 16) : Statement (.lih d a i) := by
  show 2348810240 + put d 21 + put a 16 + put i 0 < 4294967296; have := d.isLt; have := a.isLt; have := i.isLt; simp only [put]; omega
theorem cmpCc (p : BitVec 3) (a : BitVec 5) (b : BitVec 5) (c : BitVec 4) : Statement (.cmpCc p a b c) := by
  show 2415919104 + put p 21 + put a 16 + put b 11 + put c 0 < 4294967296; have := p.isLt; have := a.isLt; have := b.isLt; have := c.isLt; simp only [put]; omega
theorem cmpiCc (p : BitVec 3) (a : BitVec 5) (c : BitVec 4) : Statement (.cmpiCc p a c) := by
  show 2483027968 + put p 21 + put a 16 + put c 0 < 4294967296; have := p.isLt; have := a.isLt; have := c.isLt; simp only [put]; omega
theorem pand (d : BitVec 3) (a : BitVec 3) (b : BitVec 3) : Statement (.pand d a b) := by
  show 2550136832 + put d 21 + put a 16 + put b 11 < 4294967296; have := d.isLt; have := a.isLt; have := b.isLt; simp only [put]; omega
theorem por (d : BitVec 3) (a : BitVec 3) (b : BitVec 3) : Statement (.por d a b) := by
  show 2617245696 + put d 21 + put a 16 + put b 11 < 4294967296; have := d.isLt; have := a.isLt; have := b.isLt; simp only [put]; omega
theorem pxor (d : BitVec 3) (a : BitVec 3) (b : BitVec 3) : Statement (.pxor d a b) := by
  show 2684354560 + put d 21 + put a 16 + put b 11 < 4294967296; have := d.isLt; have := a.isLt; have := b.isLt; simp only [put]; omega
theorem pnot (d : BitVec 3) (a : BitVec 3) : Statement (.pnot d a) := by
  show 2751463424 + put d 21 + put a 16 < 4294967296; have := d.isLt; have := a.isLt; simp only [put]; omega
theorem gets (d : BitVec 5) (n : BitVec 16) : Statement (.gets d n) := by
  show 2818572288 + put d 21 + put n 0 < 4294967296; have := d.isLt; have := n.isLt; simp only [put]; omega
theorem puts (a : BitVec 5) (n : BitVec 16) : Statement (.puts a n) := by
  show 2885681152 + put a 16 + put n 0 < 4294967296; have := a.isLt; have := n.isLt; simp only [put]; omega
theorem br (p : BitVec 3) (n : BitVec 1) (o : BitVec 22) : Statement (.br p n o) := by
  show 2952790016 + put p 23 + put n 22 + put o 0 < 4294967296; have := p.isLt; have := n.isLt; have := o.isLt; simp only [put]; omega
theorem bri (a : BitVec 5) : Statement (.bri a) := by
  show 3019898880 + put a 16 < 4294967296; have := a.isLt; simp only [put]; omega
theorem call (p : BitVec 3) (n : BitVec 1) (o : BitVec 22) : Statement (.call p n o) := by
  show 3087007744 + put p 23 + put n 22 + put o 0 < 4294967296; have := p.isLt; have := n.isLt; have := o.isLt; simp only [put]; omega
theorem ret (a : BitVec 5) : Statement (.ret a) := by
  show 3154116608 + put a 16 < 4294967296; have := a.isLt; simp only [put]; omega
theorem loop (l : BitVec 3) (a : BitVec 5) (f : BitVec 11) : Statement (.loop l a f) := by
  show 3221225472 + put l 21 + put a 16 + put f 0 < 4294967296; have := l.isLt; have := a.isLt; have := f.isLt; simp only [put]; omega
theorem loopm (l : BitVec 3) (a : BitVec 5) (b : BitVec 5) (f : BitVec 11) : Statement (.loopm l a b f) := by
  show 3288334336 + put l 21 + put a 16 + put b 11 + put f 0 < 4294967296; have := l.isLt; have := a.isLt; have := b.isLt; have := f.isLt; simp only [put]; omega
theorem lstride (d : BitVec 5) (a : BitVec 5) (k : BitVec 2) (l : BitVec 3) : Statement (.lstride d a k l) := by
  show 3355443200 + put d 21 + put a 16 + put k 14 + put l 11 < 4294967296; have := d.isLt; have := a.isLt; have := k.isLt; have := l.isLt; simp only [put]; omega
theorem dispatch (d : BitVec 5) (a : BitVec 5) (b : BitVec 5) : Statement (.dispatch d a b) := by
  show 3422552064 + put d 21 + put a 16 + put b 11 < 4294967296; have := d.isLt; have := a.isLt; have := b.isLt; simp only [put]; omega
theorem yield : Statement .yield := show _ < _ by decide
theorem yieldPark : Statement .yieldPark := show _ < _ by decide
theorem exit : Statement .exit := show _ < _ by decide
theorem trap (c : BitVec 16) : Statement (.trap c) := by
  show 3623878656 + put c 0 < 4294967296; have := c.isLt; simp only [put]; omega
theorem waitt (p : BitVec 3) (a : BitVec 5) (n : BitVec 3) : Statement (.waitt p a n) := by
  show 3690987520 + put p 21 + put a 16 + put n 11 < 4294967296; have := p.isLt; have := a.isLt; have := n.isLt; simp only [put]; omega
theorem scopeSet (n : BitVec 5) (a : BitVec 5) : Statement (.scopeSet n a) := by
  show 3758096384 + put n 21 + put a 16 < 4294967296; have := n.isLt; have := a.isLt; simp only [put]; omega
theorem scopeLoad (n : BitVec 5) : Statement (.scopeLoad n) := by
  show 3825205248 + put n 21 < 4294967296; have := n.isLt; simp only [put]; omega
theorem sluice : Statement .sluice := show _ < _ by decide
theorem ldb (d : BitVec 5) (b : BitVec 5) (x : BitVec 5) (r : BitVec 2) (y : BitVec 1) (s : BitVec 5) (o : BitVec 3) : Statement (.ldb d b x r y s o) := by
  show 67108864 + put d 21 + put b 16 + put x 11 + put r 9 + put y 8 + put s 3 + put o 0 < 4294967296; have := d.isLt; have := b.isLt; have := x.isLt; have := r.isLt; have := y.isLt; have := s.isLt; have := o.isLt; simp only [put]; omega
theorem ldbn (d : BitVec 5) (b : BitVec 5) (x : BitVec 5) (r : BitVec 2) (y : BitVec 1) (s : BitVec 5) (o : BitVec 3) : Statement (.ldbn d b x r y s o) := by
  show 134217728 + put d 21 + put b 16 + put x 11 + put r 9 + put y 8 + put s 3 + put o 0 < 4294967296; have := d.isLt; have := b.isLt; have := x.isLt; have := r.isLt; have := y.isLt; have := s.isLt; have := o.isLt; simp only [put]; omega
theorem ldh (d : BitVec 5) (b : BitVec 5) (x : BitVec 5) (r : BitVec 2) (y : BitVec 1) (s : BitVec 5) (o : BitVec 3) : Statement (.ldh d b x r y s o) := by
  show 201326592 + put d 21 + put b 16 + put x 11 + put r 9 + put y 8 + put s 3 + put o 0 < 4294967296; have := d.isLt; have := b.isLt; have := x.isLt; have := r.isLt; have := y.isLt; have := s.isLt; have := o.isLt; simp only [put]; omega
theorem ldhn (d : BitVec 5) (b : BitVec 5) (x : BitVec 5) (r : BitVec 2) (y : BitVec 1) (s : BitVec 5) (o : BitVec 3) : Statement (.ldhn d b x r y s o) := by
  show 268435456 + put d 21 + put b 16 + put x 11 + put r 9 + put y 8 + put s 3 + put o 0 < 4294967296; have := d.isLt; have := b.isLt; have := x.isLt; have := r.isLt; have := y.isLt; have := s.isLt; have := o.isLt; simp only [put]; omega
theorem ldw (d : BitVec 5) (b : BitVec 5) (x : BitVec 5) (r : BitVec 2) (y : BitVec 1) (s : BitVec 5) (o : BitVec 3) : Statement (.ldw d b x r y s o) := by
  show 335544320 + put d 21 + put b 16 + put x 11 + put r 9 + put y 8 + put s 3 + put o 0 < 4294967296; have := d.isLt; have := b.isLt; have := x.isLt; have := r.isLt; have := y.isLt; have := s.isLt; have := o.isLt; simp only [put]; omega
theorem ldwn (d : BitVec 5) (b : BitVec 5) (x : BitVec 5) (r : BitVec 2) (y : BitVec 1) (s : BitVec 5) (o : BitVec 3) : Statement (.ldwn d b x r y s o) := by
  show 402653184 + put d 21 + put b 16 + put x 11 + put r 9 + put y 8 + put s 3 + put o 0 < 4294967296; have := d.isLt; have := b.isLt; have := x.isLt; have := r.isLt; have := y.isLt; have := s.isLt; have := o.isLt; simp only [put]; omega
theorem ldd (d : BitVec 5) (b : BitVec 5) (x : BitVec 5) (r : BitVec 2) (y : BitVec 1) (s : BitVec 5) (o : BitVec 3) : Statement (.ldd d b x r y s o) := by
  show 469762048 + put d 21 + put b 16 + put x 11 + put r 9 + put y 8 + put s 3 + put o 0 < 4294967296; have := d.isLt; have := b.isLt; have := x.isLt; have := r.isLt; have := y.isLt; have := s.isLt; have := o.isLt; simp only [put]; omega
theorem stb (d : BitVec 5) (b : BitVec 5) (x : BitVec 5) (r : BitVec 2) (s : BitVec 5) (o : BitVec 3) : Statement (.stb d b x r s o) := by
  show 536870912 + put d 21 + put b 16 + put x 11 + put r 9 + put s 3 + put o 0 < 4294967296; have := d.isLt; have := b.isLt; have := x.isLt; have := r.isLt; have := s.isLt; have := o.isLt; simp only [put]; omega
theorem sth (d : BitVec 5) (b : BitVec 5) (x : BitVec 5) (r : BitVec 2) (s : BitVec 5) (o : BitVec 3) : Statement (.sth d b x r s o) := by
  show 603979776 + put d 21 + put b 16 + put x 11 + put r 9 + put s 3 + put o 0 < 4294967296; have := d.isLt; have := b.isLt; have := x.isLt; have := r.isLt; have := s.isLt; have := o.isLt; simp only [put]; omega
theorem stw (d : BitVec 5) (b : BitVec 5) (x : BitVec 5) (r : BitVec 2) (s : BitVec 5) (o : BitVec 3) : Statement (.stw d b x r s o) := by
  show 671088640 + put d 21 + put b 16 + put x 11 + put r 9 + put s 3 + put o 0 < 4294967296; have := d.isLt; have := b.isLt; have := x.isLt; have := r.isLt; have := s.isLt; have := o.isLt; simp only [put]; omega
theorem std (d : BitVec 5) (b : BitVec 5) (x : BitVec 5) (r : BitVec 2) (s : BitVec 5) (o : BitVec 3) : Statement (.std d b x r s o) := by
  show 738197504 + put d 21 + put b 16 + put x 11 + put r 9 + put s 3 + put o 0 < 4294967296; have := d.isLt; have := b.isLt; have := x.isLt; have := r.isLt; have := s.isLt; have := o.isLt; simp only [put]; omega
theorem ldfull (d : BitVec 5) (b : BitVec 5) (x : BitVec 5) (s : BitVec 5) (o : BitVec 3) : Statement (.ldfull d b x s o) := by
  show 805306368 + put d 21 + put b 16 + put x 11 + put s 3 + put o 0 < 4294967296; have := d.isLt; have := b.isLt; have := x.isLt; have := s.isLt; have := o.isLt; simp only [put]; omega
theorem ldtake (d : BitVec 5) (b : BitVec 5) (x : BitVec 5) (s : BitVec 5) (o : BitVec 3) : Statement (.ldtake d b x s o) := by
  show 872415232 + put d 21 + put b 16 + put x 11 + put s 3 + put o 0 < 4294967296; have := d.isLt; have := b.isLt; have := x.isLt; have := s.isLt; have := o.isLt; simp only [put]; omega
theorem stfill (d : BitVec 5) (b : BitVec 5) (x : BitVec 5) (s : BitVec 5) (o : BitVec 3) : Statement (.stfill d b x s o) := by
  show 939524096 + put d 21 + put b 16 + put x 11 + put s 3 + put o 0 < 4294967296; have := d.isLt; have := b.isLt; have := x.isLt; have := s.isLt; have := o.isLt; simp only [put]; omega
theorem stforce (d : BitVec 5) (b : BitVec 5) (x : BitVec 5) (s : BitVec 5) (o : BitVec 3) : Statement (.stforce d b x s o) := by
  show 1006632960 + put d 21 + put b 16 + put x 11 + put s 3 + put o 0 < 4294967296; have := d.isLt; have := b.isLt; have := x.isLt; have := s.isLt; have := o.isLt; simp only [put]; omega
theorem fetag (d : BitVec 5) (b : BitVec 5) (x : BitVec 5) : Statement (.fetag d b x) := by
  show 1073741824 + put d 21 + put b 16 + put x 11 < 4294967296; have := d.isLt; have := b.isLt; have := x.isLt; simp only [put]; omega
theorem feset (d : BitVec 5) (b : BitVec 5) (x : BitVec 5) : Statement (.feset d b x) := by
  show 1140850688 + put d 21 + put b 16 + put x 11 < 4294967296; have := d.isLt; have := b.isLt; have := x.isLt; simp only [put]; omega
theorem atomAdd (d : BitVec 5) (b : BitVec 5) (x : BitVec 5) (z : BitVec 3) (s : BitVec 5) (o : BitVec 3) : Statement (.atomAdd d b x z s o) := by
  show 1207959552 + put d 21 + put b 16 + put x 11 + put z 8 + put s 3 + put o 0 < 4294967296; have := d.isLt; have := b.isLt; have := x.isLt; have := z.isLt; have := s.isLt; have := o.isLt; simp only [put]; omega
theorem atomAnd (d : BitVec 5) (b : BitVec 5) (x : BitVec 5) (z : BitVec 3) (s : BitVec 5) (o : BitVec 3) : Statement (.atomAnd d b x z s o) := by
  show 1275068416 + put d 21 + put b 16 + put x 11 + put z 8 + put s 3 + put o 0 < 4294967296; have := d.isLt; have := b.isLt; have := x.isLt; have := z.isLt; have := s.isLt; have := o.isLt; simp only [put]; omega
theorem atomOr (d : BitVec 5) (b : BitVec 5) (x : BitVec 5) (z : BitVec 3) (s : BitVec 5) (o : BitVec 3) : Statement (.atomOr d b x z s o) := by
  show 1342177280 + put d 21 + put b 16 + put x 11 + put z 8 + put s 3 + put o 0 < 4294967296; have := d.isLt; have := b.isLt; have := x.isLt; have := z.isLt; have := s.isLt; have := o.isLt; simp only [put]; omega
theorem atomXor (d : BitVec 5) (b : BitVec 5) (x : BitVec 5) (z : BitVec 3) (s : BitVec 5) (o : BitVec 3) : Statement (.atomXor d b x z s o) := by
  show 1409286144 + put d 21 + put b 16 + put x 11 + put z 8 + put s 3 + put o 0 < 4294967296; have := d.isLt; have := b.isLt; have := x.isLt; have := z.isLt; have := s.isLt; have := o.isLt; simp only [put]; omega
theorem atomMin (d : BitVec 5) (b : BitVec 5) (x : BitVec 5) (z : BitVec 3) (s : BitVec 5) (o : BitVec 3) : Statement (.atomMin d b x z s o) := by
  show 1476395008 + put d 21 + put b 16 + put x 11 + put z 8 + put s 3 + put o 0 < 4294967296; have := d.isLt; have := b.isLt; have := x.isLt; have := z.isLt; have := s.isLt; have := o.isLt; simp only [put]; omega
theorem atomMax (d : BitVec 5) (b : BitVec 5) (x : BitVec 5) (z : BitVec 3) (s : BitVec 5) (o : BitVec 3) : Statement (.atomMax d b x z s o) := by
  show 1543503872 + put d 21 + put b 16 + put x 11 + put z 8 + put s 3 + put o 0 < 4294967296; have := d.isLt; have := b.isLt; have := x.isLt; have := z.isLt; have := s.isLt; have := o.isLt; simp only [put]; omega
theorem atomMinn (d : BitVec 5) (b : BitVec 5) (x : BitVec 5) (z : BitVec 3) (s : BitVec 5) (o : BitVec 3) : Statement (.atomMinn d b x z s o) := by
  show 1610612736 + put d 21 + put b 16 + put x 11 + put z 8 + put s 3 + put o 0 < 4294967296; have := d.isLt; have := b.isLt; have := x.isLt; have := z.isLt; have := s.isLt; have := o.isLt; simp only [put]; omega
theorem atomMaxn (d : BitVec 5) (b : BitVec 5) (x : BitVec 5) (z : BitVec 3) (s : BitVec 5) (o : BitVec 3) : Statement (.atomMaxn d b x z s o) := by
  show 1677721600 + put d 21 + put b 16 + put x 11 + put z 8 + put s 3 + put o 0 < 4294967296; have := d.isLt; have := b.isLt; have := x.isLt; have := z.isLt; have := s.isLt; have := o.isLt; simp only [put]; omega
theorem atomSwap (d : BitVec 5) (b : BitVec 5) (x : BitVec 5) (z : BitVec 3) (s : BitVec 5) (o : BitVec 3) : Statement (.atomSwap d b x z s o) := by
  show 1744830464 + put d 21 + put b 16 + put x 11 + put z 8 + put s 3 + put o 0 < 4294967296; have := d.isLt; have := b.isLt; have := x.isLt; have := z.isLt; have := s.isLt; have := o.isLt; simp only [put]; omega
theorem atomCas (d : BitVec 5) (b : BitVec 5) (x : BitVec 5) (z : BitVec 3) (s : BitVec 5) (o : BitVec 3) : Statement (.atomCas d b x z s o) := by
  show 1811939328 + put d 21 + put b 16 + put x 11 + put z 8 + put s 3 + put o 0 < 4294967296; have := d.isLt; have := b.isLt; have := x.isLt; have := z.isLt; have := s.isLt; have := o.isLt; simp only [put]; omega
theorem atomFadd (d : BitVec 5) (b : BitVec 5) (x : BitVec 5) (s : BitVec 5) (o : BitVec 3) : Statement (.atomFadd d b x s o) := by
  show 1879048192 + put d 21 + put b 16 + put x 11 + put s 3 + put o 0 < 4294967296; have := d.isLt; have := b.isLt; have := x.isLt; have := s.isLt; have := o.isLt; simp only [put]; omega
theorem atomFmin (d : BitVec 5) (b : BitVec 5) (x : BitVec 5) (s : BitVec 5) (o : BitVec 3) : Statement (.atomFmin d b x s o) := by
  show 1946157056 + put d 21 + put b 16 + put x 11 + put s 3 + put o 0 < 4294967296; have := d.isLt; have := b.isLt; have := x.isLt; have := s.isLt; have := o.isLt; simp only [put]; omega
theorem atomFmax (d : BitVec 5) (b : BitVec 5) (x : BitVec 5) (s : BitVec 5) (o : BitVec 3) : Statement (.atomFmax d b x s o) := by
  show 2013265920 + put d 21 + put b 16 + put x 11 + put s 3 + put o 0 < 4294967296; have := d.isLt; have := b.isLt; have := x.isLt; have := s.isLt; have := o.isLt; simp only [put]; omega
theorem redAdd (b : BitVec 5) (x : BitVec 5) (z : BitVec 3) (s : BitVec 5) (o : BitVec 3) : Statement (.redAdd b x z s o) := by
  show 2147483648 + put b 16 + put x 11 + put z 8 + put s 3 + put o 0 < 4294967296; have := b.isLt; have := x.isLt; have := z.isLt; have := s.isLt; have := o.isLt; simp only [put]; omega
theorem redAnd (b : BitVec 5) (x : BitVec 5) (z : BitVec 3) (s : BitVec 5) (o : BitVec 3) : Statement (.redAnd b x z s o) := by
  show 2214592512 + put b 16 + put x 11 + put z 8 + put s 3 + put o 0 < 4294967296; have := b.isLt; have := x.isLt; have := z.isLt; have := s.isLt; have := o.isLt; simp only [put]; omega
theorem redOr (b : BitVec 5) (x : BitVec 5) (z : BitVec 3) (s : BitVec 5) (o : BitVec 3) : Statement (.redOr b x z s o) := by
  show 2281701376 + put b 16 + put x 11 + put z 8 + put s 3 + put o 0 < 4294967296; have := b.isLt; have := x.isLt; have := z.isLt; have := s.isLt; have := o.isLt; simp only [put]; omega
theorem redXor (b : BitVec 5) (x : BitVec 5) (z : BitVec 3) (s : BitVec 5) (o : BitVec 3) : Statement (.redXor b x z s o) := by
  show 2348810240 + put b 16 + put x 11 + put z 8 + put s 3 + put o 0 < 4294967296; have := b.isLt; have := x.isLt; have := z.isLt; have := s.isLt; have := o.isLt; simp only [put]; omega
theorem redMin (b : BitVec 5) (x : BitVec 5) (z : BitVec 3) (s : BitVec 5) (o : BitVec 3) : Statement (.redMin b x z s o) := by
  show 2415919104 + put b 16 + put x 11 + put z 8 + put s 3 + put o 0 < 4294967296; have := b.isLt; have := x.isLt; have := z.isLt; have := s.isLt; have := o.isLt; simp only [put]; omega
theorem redMax (b : BitVec 5) (x : BitVec 5) (z : BitVec 3) (s : BitVec 5) (o : BitVec 3) : Statement (.redMax b x z s o) := by
  show 2483027968 + put b 16 + put x 11 + put z 8 + put s 3 + put o 0 < 4294967296; have := b.isLt; have := x.isLt; have := z.isLt; have := s.isLt; have := o.isLt; simp only [put]; omega
theorem redMinn (b : BitVec 5) (x : BitVec 5) (z : BitVec 3) (s : BitVec 5) (o : BitVec 3) : Statement (.redMinn b x z s o) := by
  show 2550136832 + put b 16 + put x 11 + put z 8 + put s 3 + put o 0 < 4294967296; have := b.isLt; have := x.isLt; have := z.isLt; have := s.isLt; have := o.isLt; simp only [put]; omega
theorem redMaxn (b : BitVec 5) (x : BitVec 5) (z : BitVec 3) (s : BitVec 5) (o : BitVec 3) : Statement (.redMaxn b x z s o) := by
  show 2617245696 + put b 16 + put x 11 + put z 8 + put s 3 + put o 0 < 4294967296; have := b.isLt; have := x.isLt; have := z.isLt; have := s.isLt; have := o.isLt; simp only [put]; omega
theorem redFadd (b : BitVec 5) (x : BitVec 5) (s : BitVec 5) (o : BitVec 3) : Statement (.redFadd b x s o) := by
  show 2684354560 + put b 16 + put x 11 + put s 3 + put o 0 < 4294967296; have := b.isLt; have := x.isLt; have := s.isLt; have := o.isLt; simp only [put]; omega
theorem redFmin (b : BitVec 5) (x : BitVec 5) (s : BitVec 5) (o : BitVec 3) : Statement (.redFmin b x s o) := by
  show 2751463424 + put b 16 + put x 11 + put s 3 + put o 0 < 4294967296; have := b.isLt; have := x.isLt; have := s.isLt; have := o.isLt; simp only [put]; omega
theorem redFmax (b : BitVec 5) (x : BitVec 5) (s : BitVec 5) (o : BitVec 3) : Statement (.redFmax b x s o) := by
  show 2818572288 + put b 16 + put x 11 + put s 3 + put o 0 < 4294967296; have := b.isLt; have := x.isLt; have := s.isLt; have := o.isLt; simp only [put]; omega
theorem fenceAcq (s : BitVec 5) : Statement (.fenceAcq s) := by
  show 2885681152 + put s 3 < 4294967296; have := s.isLt; simp only [put]; omega
theorem fenceRel (s : BitVec 5) : Statement (.fenceRel s) := by
  show 2952790016 + put s 3 < 4294967296; have := s.isLt; simp only [put]; omega
theorem fenceAr (s : BitVec 5) : Statement (.fenceAr s) := by
  show 3019898880 + put s 3 < 4294967296; have := s.isLt; simp only [put]; omega
theorem qmark : Statement .qmark := show _ < _ by decide
theorem tktTake (d : BitVec 5) (b : BitVec 5) (s : BitVec 5) (o : BitVec 3) : Statement (.tktTake d b s o) := by
  show 3154116608 + put d 21 + put b 16 + put s 3 + put o 0 < 4294967296; have := d.isLt; have := b.isLt; have := s.isLt; have := o.isLt; simp only [put]; omega
theorem tktServe (b : BitVec 5) (s : BitVec 5) (o : BitVec 3) : Statement (.tktServe b s o) := by
  show 3221225472 + put b 16 + put s 3 + put o 0 < 4294967296; have := b.isLt; have := s.isLt; have := o.isLt; simp only [put]; omega
theorem tktWait (b : BitVec 5) (x : BitVec 5) (s : BitVec 5) (o : BitVec 3) : Statement (.tktWait b x s o) := by
  show 3288334336 + put b 16 + put x 11 + put s 3 + put o 0 < 4294967296; have := b.isLt; have := x.isLt; have := s.isLt; have := o.isLt; simp only [put]; omega
theorem barArrive (l : BitVec 3) (i : BitVec 2) (s : BitVec 5) (o : BitVec 3) : Statement (.barArrive l i s o) := by
  show 3355443200 + put l 21 + put i 11 + put s 3 + put o 0 < 4294967296; have := l.isLt; have := i.isLt; have := s.isLt; have := o.isLt; simp only [put]; omega
theorem barWait (l : BitVec 3) (i : BitVec 2) (s : BitVec 5) (o : BitVec 3) : Statement (.barWait l i s o) := by
  show 3422552064 + put l 21 + put i 11 + put s 3 + put o 0 < 4294967296; have := l.isLt; have := i.isLt; have := s.isLt; have := o.isLt; simp only [put]; omega
theorem sbind (k : BitVec 1) (i : BitVec 3) (b : BitVec 5) (x : BitVec 5) (t : BitVec 1) : Statement (.sbind k i b x t) := by
  show 3489660928 + put k 24 + put i 21 + put b 16 + put x 11 + put t 8 < 4294967296; have := k.isLt; have := i.isLt; have := b.isLt; have := x.isLt; have := t.isLt; simp only [put]; omega
theorem sstop (k : BitVec 1) (i : BitVec 3) (x : BitVec 5) : Statement (.sstop k i x) := by
  show 3556769792 + put k 24 + put i 21 + put x 11 < 4294967296; have := k.isLt; have := i.isLt; have := x.isLt; simp only [put]; omega
theorem srewind (k : BitVec 1) (i : BitVec 3) (x : BitVec 5) : Statement (.srewind k i x) := by
  show 3623878656 + put k 24 + put i 21 + put x 11 < 4294967296; have := k.isLt; have := i.isLt; have := x.isLt; simp only [put]; omega
theorem cbinit (k : BitVec 3) (b : BitVec 5) (x : BitVec 5) (t : BitVec 1) : Statement (.cbinit k b x t) := by
  show 3690987520 + put k 21 + put b 16 + put x 11 + put t 8 < 4294967296; have := k.isLt; have := b.isLt; have := x.isLt; have := t.isLt; simp only [put]; omega
theorem cbadv (s : BitVec 1) (k : BitVec 3) (x : BitVec 5) : Statement (.cbadv s k x) := by
  show 3758096384 + put s 24 + put k 21 + put x 11 < 4294967296; have := s.isLt; have := k.isLt; have := x.isLt; simp only [put]; omega
theorem l1inv : Statement .l1inv := show _ < _ by decide
theorem pref (b : BitVec 5) (x : BitVec 5) (r : BitVec 2) (y : BitVec 1) : Statement (.pref b x r y) := by
  show 3892314112 + put b 16 + put x 11 + put r 9 + put y 8 < 4294967296; have := b.isLt; have := x.isLt; have := r.isLt; have := y.isLt; simp only [put]; omega
theorem bx (i : BitVec 10) (a : BitVec 8) : Statement (.bx i a) := by
  show 1073741824 + put i 20 + put a 12 < 4294967296; have := i.isLt; have := a.isLt; simp only [put]; omega
theorem bxm (i : BitVec 10) (a : BitVec 8) (m : BitVec 8) : Statement (.bxm i a m) := by
  show 2147483648 + put i 20 + put a 12 + put m 4 < 4294967296; have := i.isLt; have := a.isLt; have := m.isLt; simp only [put]; omega
theorem copy (d : BitVec 5) (o : BitVec 5) (c : BitVec 3) (s : BitVec 5) (h : BitVec 1) : Statement (.copy d o c s h) := by
  show 67108864 + put d 21 + put o 16 + put c 13 + put s 8 + put h 0 < 4294967296; have := d.isLt; have := o.isLt; have := c.isLt; have := s.isLt; have := h.isLt; simp only [put]; omega
theorem copyx (d : BitVec 5) (o : BitVec 5) (c : BitVec 3) (s : BitVec 5) (h : BitVec 1) : Statement (.copyx d o c s h) := by
  show 134217728 + put d 21 + put o 16 + put c 13 + put s 8 + put h 0 < 4294967296; have := d.isLt; have := o.isLt; have := c.isLt; have := s.isLt; have := h.isLt; simp only [put]; omega
theorem gather (d : BitVec 5) (c : BitVec 3) (s : BitVec 5) : Statement (.gather d c s) := by
  show 201326592 + put d 21 + put c 13 + put s 8 < 4294967296; have := d.isLt; have := c.isLt; have := s.isLt; simp only [put]; omega
theorem scatter (d : BitVec 5) (c : BitVec 3) (s : BitVec 5) : Statement (.scatter d c s) := by
  show 268435456 + put d 21 + put c 13 + put s 8 < 4294967296; have := d.isLt; have := c.isLt; have := s.isLt; simp only [put]; omega
theorem tload (d : BitVec 5) (c : BitVec 3) : Statement (.tload d c) := by
  show 335544320 + put d 21 + put c 13 < 4294967296; have := d.isLt; have := c.isLt; simp only [put]; omega
theorem tseal (d : BitVec 5) (c : BitVec 3) : Statement (.tseal d c) := by
  show 402653184 + put d 21 + put c 13 < 4294967296; have := d.isLt; have := c.isLt; simp only [put]; omega
theorem smload (d : BitVec 5) (o : BitVec 5) (c : BitVec 3) : Statement (.smload d o c) := by
  show 469762048 + put d 21 + put o 16 + put c 13 < 4294967296; have := d.isLt; have := o.isLt; have := c.isLt; simp only [put]; omega
theorem imload (d : BitVec 5) (c : BitVec 3) : Statement (.imload d c) := by
  show 536870912 + put d 21 + put c 13 < 4294967296; have := d.isLt; have := c.isLt; simp only [put]; omega
theorem coll (d : BitVec 5) (c : BitVec 3) (s : BitVec 5) : Statement (.coll d c s) := by
  show 603979776 + put d 21 + put c 13 + put s 8 < 4294967296; have := d.isLt; have := c.isLt; have := s.isLt; simp only [put]; omega
theorem tready (d : BitVec 5) (o : BitVec 5) (c : BitVec 3) : Statement (.tready d o c) := by
  show 671088640 + put d 21 + put o 16 + put c 13 < 4294967296; have := d.isLt; have := o.isLt; have := c.isLt; simp only [put]; omega
theorem mldr (d : BitVec 5) (c : BitVec 3) (s : BitVec 5) : Statement (.mldr d c s) := by
  show 738197504 + put d 21 + put c 13 + put s 8 < 4294967296; have := d.isLt; have := c.isLt; have := s.isLt; simp only [put]; omega
theorem mred (d : BitVec 5) (c : BitVec 3) (s : BitVec 5) : Statement (.mred d c s) := by
  show 805306368 + put d 21 + put c 13 + put s 8 < 4294967296; have := d.isLt; have := c.isLt; have := s.isLt; simp only [put]; omega
theorem route (d : BitVec 5) (c : BitVec 3) (s : BitVec 5) : Statement (.route d c s) := by
  show 872415232 + put d 21 + put c 13 + put s 8 < 4294967296; have := d.isLt; have := c.isLt; have := s.isLt; simp only [put]; omega
theorem ltxOpen (d : BitVec 5) (c : BitVec 3) (s : BitVec 5) : Statement (.ltxOpen d c s) := by
  show 939524096 + put d 21 + put c 13 + put s 8 < 4294967296; have := d.isLt; have := c.isLt; have := s.isLt; simp only [put]; omega
theorem ltxCommit (d : BitVec 5) (o : BitVec 5) (c : BitVec 3) (s : BitVec 5) : Statement (.ltxCommit d o c s) := by
  show 1006632960 + put d 21 + put o 16 + put c 13 + put s 8 < 4294967296; have := d.isLt; have := o.isLt; have := c.isLt; have := s.isLt; simp only [put]; omega
theorem ltxAbort (d : BitVec 5) (o : BitVec 5) (c : BitVec 3) (s : BitVec 5) : Statement (.ltxAbort d o c s) := by
  show 1073741824 + put d 21 + put o 16 + put c 13 + put s 8 < 4294967296; have := d.isLt; have := o.isLt; have := c.isLt; have := s.isLt; simp only [put]; omega
theorem aeMap (d : BitVec 5) (c : BitVec 3) (s : BitVec 5) : Statement (.aeMap d c s) := by
  show 1140850688 + put d 21 + put c 13 + put s 8 < 4294967296; have := d.isLt; have := c.isLt; have := s.isLt; simp only [put]; omega
theorem aeMapMatrices (d : BitVec 5) (c : BitVec 3) (s : BitVec 5) : Statement (.aeMapMatrices d c s) := by
  show 1140850689 + put d 21 + put c 13 + put s 8 < 4294967296; have := d.isLt; have := c.isLt; have := s.isLt; simp only [put]; omega
theorem aeMapUnmap (d : BitVec 5) (c : BitVec 3) (s : BitVec 5) : Statement (.aeMapUnmap d c s) := by
  show 1140850690 + put d 21 + put c 13 + put s 8 < 4294967296; have := d.isLt; have := c.isLt; have := s.isLt; simp only [put]; omega
theorem aeGate (d : BitVec 5) (c : BitVec 3) (s : BitVec 5) : Statement (.aeGate d c s) := by
  show 1207959552 + put d 21 + put c 13 + put s 8 < 4294967296; have := d.isLt; have := c.isLt; have := s.isLt; simp only [put]; omega
theorem aeSwap (d : BitVec 5) (c : BitVec 3) (s : BitVec 5) : Statement (.aeSwap d c s) := by
  show 1275068416 + put d 21 + put c 13 + put s 8 < 4294967296; have := d.isLt; have := c.isLt; have := s.isLt; simp only [put]; omega
theorem aeNorm (d : BitVec 5) (c : BitVec 3) (s : BitVec 5) : Statement (.aeNorm d c s) := by
  show 1342177280 + put d 21 + put c 13 + put s 8 < 4294967296; have := d.isLt; have := c.isLt; have := s.isLt; simp only [put]; omega
theorem aeProj (d : BitVec 5) (c : BitVec 3) (s : BitVec 5) : Statement (.aeProj d c s) := by
  show 1409286144 + put d 21 + put c 13 + put s 8 < 4294967296; have := d.isLt; have := c.isLt; have := s.isLt; simp only [put]; omega
theorem trig (d : BitVec 5) (c : BitVec 3) : Statement (.trig d c) := by
  show 1476395008 + put d 21 + put c 13 < 4294967296; have := d.isLt; have := c.isLt; simp only [put]; omega
theorem cancel (d : BitVec 5) (o : BitVec 5) (c : BitVec 3) : Statement (.cancel d o c) := by
  show 1543503872 + put d 21 + put o 16 + put c 13 < 4294967296; have := d.isLt; have := o.isLt; have := c.isLt; simp only [put]; omega
theorem xnop : Statement .xnop := show _ < _ by decide
theorem cload (g : BitVec 3) (a : BitVec 6) (b : BitVec 6) (c : BitVec 3) (r : BitVec 1) : Statement (.cload g a b c r) := by
  show 134217728 + put g 24 + put a 18 + put b 12 + put c 9 + put r 0 < 4294967296; have := g.isLt; have := a.isLt; have := b.isLt; have := c.isLt; have := r.isLt; simp only [put]; omega
theorem ctag (g : BitVec 3) (a : BitVec 6) (b : BitVec 6) (c : BitVec 3) : Statement (.ctag g a b c) := by
  show 268435456 + put g 24 + put a 18 + put b 12 + put c 9 < 4294967296; have := g.isLt; have := a.isLt; have := b.isLt; have := c.isLt; simp only [put]; omega
theorem cstore (g : BitVec 3) (a : BitVec 6) (b : BitVec 6) (c : BitVec 3) (k : BitVec 1) : Statement (.cstore g a b c k) := by
  show 402653184 + put g 24 + put a 18 + put b 12 + put c 9 + put k 0 < 4294967296; have := g.isLt; have := a.isLt; have := b.isLt; have := c.isLt; have := k.isLt; simp only [put]; omega
theorem cx (g : BitVec 3) (c : BitVec 3) (j : BitVec 3) (d : BitVec 3) (b : BitVec 3) : Statement (.cx g c j d b) := by
  show 536870912 + put g 24 + put c 9 + put j 6 + put d 3 + put b 0 < 4294967296; have := g.isLt; have := c.isLt; have := j.isLt; have := d.isLt; have := b.isLt; simp only [put]; omega
theorem cclr (g : BitVec 3) (c : BitVec 3) : Statement (.cclr g c) := by
  show 671088640 + put g 24 + put c 9 < 4294967296; have := g.isLt; have := c.isLt; simp only [put]; omega
theorem rngseed (g : BitVec 3) (a : BitVec 6) : Statement (.rngseed g a) := by
  show 805306368 + put g 24 + put a 18 < 4294967296; have := g.isLt; have := a.isLt; simp only [put]; omega
theorem rngctl (f : BitVec 1) (e : BitVec 1) : Statement (.rngctl f e) := by
  show 939524096 + put f 1 + put e 0 < 4294967296; have := f.isLt; have := e.isLt; simp only [put]; omega
theorem entryNop : Statement .entryNop := show _ < _ by decide
theorem vadd (e : Entry) : Statement (.vadd e) := word_lt e _ (by decide)
theorem vsub (e : Entry) : Statement (.vsub e) := word_lt e _ (by decide)
theorem vmul (e : Entry) : Statement (.vmul e) := word_lt e _ (by decide)
theorem vmulh (e : Entry) : Statement (.vmulh e) := word_lt e _ (by decide)
theorem vmad (e : Entry) : Statement (.vmad e) := word_lt e _ (by decide)
theorem vdp4 (e : Entry) : Statement (.vdp4 e) := word_lt e _ (by decide)
theorem vand (e : Entry) : Statement (.vand e) := word_lt e _ (by decide)
theorem vor (e : Entry) : Statement (.vor e) := word_lt e _ (by decide)
theorem vxor (e : Entry) : Statement (.vxor e) := word_lt e _ (by decide)
theorem vshl (e : Entry) : Statement (.vshl e) := word_lt e _ (by decide)
theorem vshrl (e : Entry) : Statement (.vshrl e) := word_lt e _ (by decide)
theorem vshra (e : Entry) : Statement (.vshra e) := word_lt e _ (by decide)
theorem vmin (e : Entry) : Statement (.vmin e) := word_lt e _ (by decide)
theorem vmax (e : Entry) : Statement (.vmax e) := word_lt e _ (by decide)
theorem vabs (e : Entry) : Statement (.vabs e) := word_lt e _ (by decide)
theorem vneg (e : Entry) : Statement (.vneg e) := word_lt e _ (by decide)
theorem vcmpCc (e : Entry) : Statement (.vcmpCc e) := word_lt e _ (by decide)
theorem vsel (e : Entry) : Statement (.vsel e) := word_lt e _ (by decide)
theorem vpopc (e : Entry) : Statement (.vpopc e) := word_lt e _ (by decide)
theorem vclz (e : Entry) : Statement (.vclz e) := word_lt e _ (by decide)
theorem vfadd (e : Entry) : Statement (.vfadd e) := word_lt e _ (by decide)
theorem vfsub (e : Entry) : Statement (.vfsub e) := word_lt e _ (by decide)
theorem vfmul (e : Entry) : Statement (.vfmul e) := word_lt e _ (by decide)
theorem vfma (e : Entry) : Statement (.vfma e) := word_lt e _ (by decide)
theorem vfmin (e : Entry) : Statement (.vfmin e) := word_lt e _ (by decide)
theorem vfmax (e : Entry) : Statement (.vfmax e) := word_lt e _ (by decide)
theorem vfabs (e : Entry) : Statement (.vfabs e) := word_lt e _ (by decide)
theorem vfcmpCc (e : Entry) : Statement (.vfcmpCc e) := word_lt e _ (by decide)
theorem vfrcp (e : Entry) : Statement (.vfrcp e) := word_lt e _ (by decide)
theorem vfrsq (e : Entry) : Statement (.vfrsq e) := word_lt e _ (by decide)
theorem vfexp2 (e : Entry) : Statement (.vfexp2 e) := word_lt e _ (by decide)
theorem vflog2 (e : Entry) : Statement (.vflog2 e) := word_lt e _ (by decide)
theorem vcvt (e : Entry) : Statement (.vcvt e) := word_lt e _ (by decide)
theorem vquant (e : Entry) : Statement (.vquant e) := word_lt e _ (by decide)
theorem vdequant (e : Entry) : Statement (.vdequant e) := word_lt e _ (by decide)
theorem vpack (e : Entry) : Statement (.vpack e) := word_lt e _ (by decide)
theorem vunpack (e : Entry) : Statement (.vunpack e) := word_lt e _ (by decide)
theorem vlmul (e : Entry) : Statement (.vlmul e) := word_lt e _ (by decide)
theorem vlsum (e : Entry) : Statement (.vlsum e) := word_lt e _ (by decide)
theorem vperm (e : Entry) : Statement (.vperm e) := word_lt e _ (by decide)
theorem vbcast (e : Entry) : Statement (.vbcast e) := word_lt e _ (by decide)
theorem vreduce (e : Entry) : Statement (.vreduce e) := word_lt e _ (by decide)
theorem vscan (e : Entry) : Statement (.vscan e) := word_lt e _ (by decide)
theorem viota (e : Entry) : Statement (.viota e) := word_lt e _ (by decide)
theorem mand (e : Entry) : Statement (.mand e) := word_lt e _ (by decide)
theorem mor (e : Entry) : Statement (.mor e) := word_lt e _ (by decide)
theorem mnot (e : Entry) : Statement (.mnot e) := word_lt e _ (by decide)
theorem mset (e : Entry) : Statement (.mset e) := word_lt e _ (by decide)
theorem spld (e : Entry) : Statement (.spld e) := word_lt e _ (by decide)
theorem spst (e : Entry) : Statement (.spst e) := word_lt e _ (by decide)
theorem spldx (e : Entry) : Statement (.spldx e) := word_lt e _ (by decide)
theorem spstx (e : Entry) : Statement (.spstx e) := word_lt e _ (by decide)
theorem spldFull (e : Entry) : Statement (.spldFull e) := word_lt e _ (by decide)
theorem spstEmpty (e : Entry) : Statement (.spstEmpty e) := word_lt e _ (by decide)
theorem spatomAdd (e : Entry) : Statement (.spatomAdd e) := word_lt e _ (by decide)
theorem vshn (e : Entry) : Statement (.vshn e) := word_lt e _ (by decide)
theorem gadd (e : Entry) : Statement (.gadd e) := word_lt e _ (by decide)
theorem gli (e : Entry) : Statement (.gli e) := word_lt e _ (by decide)
theorem gmov (e : Entry) : Statement (.gmov e) := word_lt e _ (by decide)
theorem gmovVector (e : Entry) : Statement (.gmovVector e) := word_lt e _ (by decide)
theorem mma (e : Entry) : Statement (.mma e) := word_lt e _ (by decide)
theorem mmaSp (e : Entry) : Statement (.mmaSp e) := word_lt e _ (by decide)
theorem mzero (e : Entry) : Statement (.mzero e) := word_lt e _ (by decide)
theorem mdrain (e : Entry) : Statement (.mdrain e) := word_lt e _ (by decide)
theorem mfeed (e : Entry) : Statement (.mfeed e) := word_lt e _ (by decide)
theorem vblk (e : Entry) : Statement (.vblk e) := word_lt e _ (by decide)
theorem bundleIssue : Statement .bundleIssue := show _ < _ by decide
theorem selectorRotation : Statement .selectorRotation := show _ < _ by decide
theorem resultWrite : Statement .resultWrite := show _ < _ by decide
theorem beatCountExpiry : Statement .beatCountExpiry := show _ < _ by decide
theorem mmaBeat : Statement .mmaBeat := show _ < _ by decide
theorem tileBusyClear : Statement .tileBusyClear := show _ < _ by decide
theorem columnStage : Statement .columnStage := show _ < _ by decide
theorem checkpoint : Statement .checkpoint := show _ < _ by decide
theorem withheldStoreDrain : Statement .withheldStoreDrain := show _ < _ by decide
theorem releaseHandover : Statement .releaseHandover := show _ < _ by decide
theorem storeAcknowledgement : Statement .storeAcknowledgement := show _ < _ by decide
theorem trapTaken : Statement .trapTaken := show _ < _ by decide
theorem raceReport : Statement .raceReport := show _ < _ by decide
theorem loadReturn : Statement .loadReturn := show _ < _ by decide
theorem pageWalk : Statement .pageWalk := show _ < _ by decide
theorem migReread : Statement .migReread := show _ < _ by decide
theorem streamFetch : Statement .streamFetch := show _ < _ by decide
theorem outputQueueDrain : Statement .outputQueueDrain := show _ < _ by decide
theorem rbqFillSlot : Statement .rbqFillSlot := show _ < _ by decide
theorem l1invComplete : Statement .l1invComplete := show _ < _ by decide
theorem fullEmptyService : Statement .fullEmptyService := show _ < _ by decide
theorem ticketResend : Statement .ticketResend := show _ < _ by decide
theorem barrierPhaseComplete : Statement .barrierPhaseComplete := show _ < _ by decide
theorem engineCommandStart : Statement .engineCommandStart := show _ < _ by decide
theorem engineCommandComplete : Statement .engineCommandComplete := show _ < _ by decide
theorem triggerFire : Statement .triggerFire := show _ < _ by decide
theorem tileFire : Statement .tileFire := show _ < _ by decide
theorem windowRoundMerge : Statement .windowRoundMerge := show _ < _ by decide
theorem memberAbsentTimeout : Statement .memberAbsentTimeout := show _ < _ by decide
theorem collectiveTimeout : Statement .collectiveTimeout := show _ < _ by decide
theorem ltxTimeout : Statement .ltxTimeout := show _ < _ by decide
theorem aeStateCommandPerform : Statement .aeStateCommandPerform := show _ < _ by decide
theorem pickup : Statement .pickup := show _ < _ by decide
theorem stealRound : Statement .stealRound := show _ < _ by decide
theorem gangCorePreparation : Statement .gangCorePreparation := show _ < _ by decide
theorem gangPreparationTimeout : Statement .gangPreparationTimeout := show _ < _ by decide
theorem gangRelease : Statement .gangRelease := show _ < _ by decide
theorem sluiceDecision : Statement .sluiceDecision := show _ < _ by decide
theorem sluiceSwap : Statement .sluiceSwap := show _ < _ by decide
theorem preemption : Statement .preemption := show _ < _ by decide
theorem contextSave : Statement .contextSave := show _ < _ by decide
theorem patrolScrub : Statement .patrolScrub := show _ < _ by decide
theorem rowSpare : Statement .rowSpare := show _ < _ by decide
theorem imPoisonRepair : Statement .imPoisonRepair := show _ < _ by decide
theorem laneFault : Statement .laneFault := show _ < _ by decide
theorem droopResponse : Statement .droopResponse := show _ < _ by decide
theorem thermalThrottle : Statement .thermalThrottle := show _ < _ by decide
theorem thermalTrip : Statement .thermalTrip := show _ < _ by decide
theorem packageReset : Statement .packageReset := show _ < _ by decide
theorem retirementMapUpdate : Statement .retirementMapUpdate := show _ < _ by decide
theorem frameReceived : Statement .frameReceived := show _ < _ by decide
theorem countWordPublish : Statement .countWordPublish := show _ < _ by decide
theorem txFrameSend : Statement .txFrameSend := show _ < _ by decide
theorem pollingSlotVisit : Statement .pollingSlotVisit := show _ < _ by decide
theorem frameBoundary : Statement .frameBoundary := show _ < _ by decide
theorem agingTick : Statement .agingTick := show _ < _ by decide
theorem queueUnbind : Statement .queueUnbind := show _ < _ by decide
theorem queueTriggerFire : Statement .queueTriggerFire := show _ < _ by decide
theorem notify : Statement .notify := show _ < _ by decide
theorem queueEnable : Statement .queueEnable := show _ < _ by decide
theorem queueDisable : Statement .queueDisable := show _ < _ by decide
theorem nopCommand : Statement .nopCommand := show _ < _ by decide
theorem launch : Statement .launch := show _ < _ by decide
theorem write : Statement .write := show _ < _ by decide
theorem abort : Statement .abort := show _ < _ by decide
theorem requeue : Statement .requeue := show _ < _ by decide
theorem deviceEnable : Statement .deviceEnable := show _ < _ by decide
theorem deviceDisable : Statement .deviceDisable := show _ < _ by decide
theorem devTimeRead : Statement .devTimeRead := show _ < _ by decide
theorem timeSet : Statement .timeSet := show _ < _ by decide
theorem fwLoad : Statement .fwLoad := show _ < _ by decide
theorem fwSwitch : Statement .fwSwitch := show _ < _ by decide
theorem firmwareHandover : Statement .firmwareHandover := show _ < _ by decide
theorem ringEnable : Statement .ringEnable := show _ < _ by decide
theorem txEnable : Statement .txEnable := show _ < _ by decide
theorem txprod : Statement .txprod := show _ < _ by decide
theorem registerWrite : Statement .registerWrite := show _ < _ by decide
theorem shootdown : Statement .shootdown := show _ < _ by decide
theorem preemptCores : Statement .preemptCores := show _ < _ by decide
theorem preemptLaunch : Statement .preemptLaunch := show _ < _ by decide
theorem reopen : Statement .reopen := show _ < _ by decide
theorem coreOut : Statement .coreOut := show _ < _ by decide
theorem spareIn : Statement .spareIn := show _ < _ by decide
theorem dieOut : Statement .dieOut := show _ < _ by decide
theorem bankSpare : Statement .bankSpare := show _ < _ by decide
theorem portOut : Statement .portOut := show _ < _ by decide
theorem portIn : Statement .portIn := show _ < _ by decide
theorem portSpareLane : Statement .portSpareLane := show _ < _ by decide
theorem scrub : Statement .scrub := show _ < _ by decide
theorem attest : Statement .attest := show _ < _ by decide
theorem i3cDynamicAddress : Statement .i3cDynamicAddress := show _ < _ by decide
theorem i3cPrivateWrite : Statement .i3cPrivateWrite := show _ < _ by decide
theorem i3cPrivateRead : Statement .i3cPrivateRead := show _ < _ by decide
theorem engineCommandProgress : Statement .engineCommandProgress := show _ < _ by decide
theorem bar4WindowAccess : Statement .bar4WindowAccess := show _ < _ by decide
theorem packageUnreachable : Statement .packageUnreachable := show _ < _ by decide
theorem packageRejoins : Statement .packageRejoins := show _ < _ by decide
theorem powerLoss : Statement .powerLoss := show _ < _ by decide
theorem imFetchAhead : Statement .imFetchAhead := show _ < _ by decide

end Sys2Proof.Laws.EncodingFits
end

