-- ==== Sys2Proof/Tests/Slice0.lean ====
section
/-!
SUPPORT. The author's own checks, each evaluated by the kernel: ill-formed instructions that WellFormed refuses, words written out from
the spec's encodings, single steps on small states with the result that the rules give, and, for every statement with hypotheses, a state
that meets them.
-/

open Sys2Proof Sys2Proof.Machine

namespace Sys2Proof.Tests

set_option maxRecDepth 100000
set_option Elab.async false

-- small states

/-- Context 0 of core 0, with the windows of one context, a page of HBM in its TLB and changes of its launch, core and context, in the
frame of an empty bundle. -/
def ready (fl : Launch → Launch) (fk : Core → Core) (fc : Ctx → Ctx) : State :=
  let s := State.reset.withFetchWord 32 0
  let s1 := { s with launches := s.launches.map fl }
  let leaf : TlbEntry := { pasid := 0, va := 0, size := 65536, leaf := 0x1000F }
  let k := fk { s1.core 0 with tlb := [leaf] }
  openFrame (s1.setCore 0 { k with ctxs := [(0, fc (k.ctx 0))] }) 0 0 0

/-- s1 = 12, s2 = 5, s3 the base of the own scratchpad, s4 a page of HBM (fabric address 0x10000), s5 = 3, s7 = 0. -/
def regsA : Tbl Word := [(1, 12), (2, 5), (3, 0x00FF000000000000), (4, 0x1000), (5, 3)]

def sA : State :=
  ready id (fun k => { k with spad := [(0, 7), (1, 1), (8, 0x80)] }) (fun c => { c with arch := { c.arch with s := regsA } })

/-- The same with registers of the context, its core and its launch changed. -/
def sB (fl : Launch → Launch) (fk : Core → Core) (fa : Arch → Arch) (fc : Ctx → Ctx) : State :=
  ready fl fk (fun c => fc { c with arch := fa { c.arch with s := regsA } })

/-- The launch whose item the context runs. -/
def launchA (s : State) : Launch :=
  (s.launchOf 0 0).getD { id := 0, pkg := 0, desc := 0, pasid := 0, cmd := { q := 0, words := [] } }

-- refused field values, one for each check of WellFormed

theorem test_refused_scalar : [Instr.add 31 1 2, .clz 31 1, .addx 31 1 2 3 4, .sel 31 1 2 3, .addi 31 1 2, .shli 31 1 2, .li 31 0,
    .lih 31 1 0, .cmpCc 1 2 3 10, .cmpiCc 1 2 15, .gets 31 0, .gets 1 5, .gets 1 0x36, .puts 1 0x20, .br 0 1 0, .call 0 1 0, .loop 6 1 1,
    .loop 0 1 0, .loopm 0 1 7 1, .lstride 31 1 0 0, .lstride 1 1 0 6, .dispatch 3 1 3, .scopeSet 7 1, .scopeLoad 7].map Instr.wf =
    List.replicate 24 false := by decide +kernel

theorem test_refused_address : [Instr.ldb 31 1 2 0 0 0 0, .ldw 1 1 2 0 0 0 2, .ldd 1 1 2 0 0 7 1, .ldd 1 1 2 0 0 3 0, .std 1 1 2 0 0 1,
    .std 1 1 2 0 3 0, .ldfull 31 1 2 0 0, .stfill 1 1 2 0 1, .fetag 31 1 2, .atomAdd 1 2 3 2 0 0, .atomAdd 1 2 3 0 0 4, .atomCas 1 2 3 0 0 0,
    .atomCas 3 2 4 2 0 0, .atomCas 2 2 6 2 0 0, .atomFadd 31 1 2 0 0, .redAdd 1 2 0 0 1, .redFadd 1 2 7 0, .fenceAcq 7, .tktTake 1 2 0 2,
    .tktServe 1 0 1, .tktWait 1 2 0 3, .barArrive 6 0 0 0, .barArrive 0 1 0 0, .barWait 1 0 0 2, .sbind 1 4 1 0 0, .sstop 1 7 0,
    .cbadv 0 6 0].map Instr.wf = List.replicate 27 false := by decide +kernel

theorem test_refused_engine_and_select : [Instr.copy 0 1 0 0 1, .copy 1 31 0 0 1, .copy 1 2 0 0 0, .copyx 1 0 0 7 0, .gather 31 0 0,
    .coll 0 0 0, .tload 0 0, .tseal 31 0, .smload 1 31 0, .tready 0 1 0, .ltxCommit 31 0 0 0, .cancel 0 31 0, .cload 0 48 0 0 0,
    .cstore 0 0 63 0 0, .cx 1 7 0 0 0, .cx 0 0 6 0 0, .cx 0 0 2 0 3, .cclr 7 1, .rngseed 0 48].map Instr.wf =
    List.replicate 19 false := by decide +kernel

/-- An entry with the given fields. -/
def ent (fmt : BitVec 3) (d a b c : BitVec 6) (mask bank : BitVec 3) (mod : BitVec 22) : Entry :=
  { cls := 1, fmt := fmt, d := d, a := a, b := b, c := c, mask := mask, bank := bank, mod := mod }

theorem test_refused_entries : [Instr.vadd (ent 0 56 0 1 63 0 0 0), .vadd (ent 0 0 56 1 63 0 0 0), .vadd (ent 0 0 0 1 2 0 0 0),
    .vadd (ent 0 0 0 1 63 0 1 0), .vadd (ent 1 0 0 1 63 0 0 0), .vmulh (ent 2 0 0 1 63 0 0 0), .vmad (ent 0 0 0 1 57 0 0 0),
    .vdp4 (ent 4 0 0 1 2 0 0 0), .vabs (ent 0 0 0 1 63 0 0 0), .vcmpCc (ent 0 0 0 1 63 0 0 10), .vfadd (ent 0 0 0 1 63 0 0 4),
    .vfcmpCc (ent 0 0 0 1 63 0 0 4), .vfmin (ent 0 0 0 1 63 0 0 1), .vcvt (ent 0 0 0 63 63 0 0 0), .vcvt (ent 0 0 0 63 63 0 0 0x2C0000),
    .vquant (ent 6 48 0 63 63 0 0 0), .vquant (ent 2 0 0 63 63 1 0 0), .vdequant (ent 0 0 0 63 63 0 0 0), .vpack (ent 0 0 0 1 2 0 0 0),
    .vunpack (ent 0 0 0 63 63 0 0 2), .vlmul (ent 0 0 0 1 63 0 0 4), .vlsum (ent 0 0 0 1 2 0 0 4), .vbcast (ent 0 0 0 63 63 0 0 64),
    .vreduce (ent 0 0 0 63 63 0 0 16), .vscan (ent 0 0 0 63 63 0 0 11), .viota (ent 0 0 0 63 63 0 0 0), .mand (ent 0 8 1 2 63 0 0 0),
    .mnot (ent 0 1 1 2 63 0 0 0), .mset (ent 0 1 0 63 63 1 0 0), .spld (ent 0 0 63 63 63 0 0 1), .spst (ent 0 0 0 63 63 0 0 0),
    .spldx (ent 0 0 63 0 63 0 0 1), .spstx (ent 1 63 63 0 1 0 0 0), .spatomAdd (ent 2 0 63 0 1 0 0 0), .vshn (ent 0 58 0 63 63 0 0 0),
    .vshn (ent 0 56 0 63 63 0 0 48), .gadd (ent 0 63 63 63 63 0 0 0x100000), .gli (ent 0 63 63 63 63 0 0 0),
    .gmov (ent 0 63 0 63 63 0 0 0x200020), .gmovVector (ent 0 0 63 63 63 0 0 0x200000), .mma (ent 0 63 63 63 63 1 0 0),
    .mmaSp (ent 0 63 63 63 63 0 0 0), .mzero (ent 0 63 63 63 63 0 0 1), .mdrain (ent 7 48 63 63 63 0 0 0x000E00),
    .mdrain (ent 5 0 63 63 63 0 0 0x000E00), .mfeed (ent 0 63 0 63 63 0 0 0x000000), .vblk (ent 0 0 0 1 63 0 0 0x030000)].map Instr.wf =
    List.replicate 47 false := by decide +kernel

-- words written out from the encoding tables (Tables 3.3 to 3.9)

theorem test_decode_scalar : decode .s 0x6CC60001 = some (.addi 6 6 1) ∧ decode .s 0xD4000000 = some .exit ∧
    decode .s 0xA8800022 = some (.gets 4 0x22) ∧ decode .s 0xFC000000 = none := by decide +kernel

theorem test_decode_address : decode .a 0x2CC90000 = some (.std 6 9 0 0 0 0) ∧ decode .a 0x1CC90100 = some (.ldd 6 9 0 0 1 0 0) ∧
    decode .a 0xBCA80020 = some (.tktTake 5 8 4 0) ∧ decode .a 0xC4082821 = some (.tktWait 8 5 4 1) ∧
    decode .a 0xC0080022 = some (.tktServe 8 4 2) ∧ decode .a 0xB8000000 = some .qmark ∧ decode .a 0xE4000000 = some .l1inv := by
  decide +kernel

theorem test_decode_broadcast : decode .g 0x40105000 = some (.bx 1 5) ∧ decode .g 0x80A02020 = some (.bxm 10 2 2) ∧
    decode .g 0xC0000000 = none := by decide +kernel

theorem test_decode_engine : decode .e 0x05204300 = some (.copy 9 0 2 3 0) ∧ decode .e 0x15802000 = some (.tload 12 1) ∧
    decode .e 0x35C06400 = some (.route 14 3 4) ∧ decode .e 0x3C050400 = some (.ltxCommit 0 5 0 4) ∧
    decode .e 0x25000500 = some (.coll 8 0 5) := by decide +kernel

theorem test_decode_select : decode .x 0x08105001 = some (.cload 0 4 5 0 1) ∧ decode .x 0x23000175 = some (.cx 3 0 5 6 5) ∧
    decode .x 0x18187000 = some (.cstore 0 6 7 0 0) ∧ decode .x 0x00230001 = none := by decide +kernel

theorem test_decode_entries : decode .entry 0x04803EF3F0000000 = some (.vadd (ent 0 0 62 60 63 0 0 0)) ∧
    decode .entry 0x5D80700FF0000000 = some (.vfmul { cls := 3, fmt := 0, d := 1, a := 48, b := 3, c := 63, mask := 0, bank := 0, mod := 0 }) ∧
    decode .entry 0xE28E70FFF000000A = some (.vshn { cls := 5, fmt := 0, d := 57, a := 48, b := 63, c := 63, mask := 0, bank := 0, mod := 10 }) ∧
    decode .entry 0 = some .entryNop := by decide +kernel

theorem test_encode_gives_the_words : encode (.addi 6 6 1) = 0x6CC60001 ∧ encode (.ldd 6 9 0 0 1 0 0) = 0x1CC90100 ∧
    encode (.coll 8 0 5) = 0x25000500 ∧ encode (.cx 3 0 5 6 5) = 0x23000175 ∧ encode (.bxm 10 2 2) = 0x80A02020 := by decide +kernel

-- states that meet the hypotheses of the statements: the control core

theorem test_sA_memories : sA.memWf := by
  unfold State.memWf Core.memWf
  decide +kernel

/-- For `puts` of PRIO. -/
theorem test_meets_puts : (0x11 : BitVec 16) ∉ ([0x0010, 0x0018, 0x0019, 0x0021, 0x0022, 0x0023, 0x0024, 0x0025] : List (BitVec 16)) ∧
    sA.launchOf sA.frame.core sA.frame.ctx = some (launchA sA) := by decide +kernel

/-- A level 0 that runs and ends at bundle 0 with three iterations left, and no other. -/
def sLoop : State := sB id id (fun a => { a with loops := [(0, { run := true, remain := 3, iter := 1, first := 0, last := 0 })] }) id

theorem test_meets_branches : sA.srcP 0 = ((1 : BitVec 1) == 1) ∧ sA.srcP 0 ≠ ((0 : BitVec 1) == 1) ∧
    (∀ n, n < 6 → ((sA.ctx 0 0).arch.loops.get n {}).run = false ∨ ((sA.ctx 0 0).arch.loops.get n {}).last ≠ 0) ∧
    (let c := sLoop.ctx 0 0
     (c.arch.loops.get 0 {}).run = true ∧ (c.arch.loops.get 0 {}).last = 0 ∧ 1 < (c.arch.loops.get 0 {}).remain ∧
      ∀ m, m < 6 → 0 < m → (c.arch.loops.get m {}).run = false ∨ (c.arch.loops.get m {}).last ≠ 0) := by decide +kernel

/-- Level 2 goes on at bundle 3, back to bundle 1; level 4 ends there with it, over its last iteration; level 0 inside it is over, level 1
began before it. Its strides go to s5, which waits for a load, and twice to s6. -/
def loopsA : Tbl Loop :=
  [(0, { remain := 1, iter := 3, first := 2, last := 3 }), (1, { run := true, remain := 2, first := 0, last := 4 }),
   (2, { run := true, remain := 2, iter := 1, first := 1, last := 3, strides := [(0, (5, 8)), (1, (6, 1)), (2, (6, 2))] }),
   (4, { run := true, remain := 1, iter := 1, first := 2, last := 3 })]

def sNest : State := sB id id (fun a => { a with loops := loopsA, sWait := [(5, 1)] }) id

theorem test_meets_ends_of_levels :
    (let c := (sNest.ctx 0 0).arch
     let goesOn (m : Nat) : Bool := (c.loops.get m {}).run && (c.loops.get m {}).last == 3 && decide (1 < (c.loops.get m {}).remain)
     (List.range 6).filter goesOn = [2] ∧ c.sWait.find 5 = some 1 ∧ c.sWait.find 6 = none) ∧
    (let q := loopsA.get 0 {}
     q.run = false ∧ q.remain ≠ 0 ∧ (1 : Nat) ≤ q.first ∧ q.last ≤ 3) ∧
    (loopsA.get 4 {}).run = true ∧ (loopsA.get 4 {}).last = 3 ∧
    (let s := sB id id (fun a => { a with loops := [(4, loopsA.get 4 {})] }) id
     let c := (s.ctx 0 0).arch
     (List.range 6).all (fun m => !((c.loops.get m {}).run && (c.loops.get m {}).last == 3 && decide (1 < (c.loops.get m {}).remain))) = true ∧
      (c.loops.get 4 {}).run = true ∧ (c.loops.get 4 {}).last = 3) := by decide +kernel

/-- An image of five bundles; the last three are a capacity table of two buckets, 4 and 8, in the pool. -/
def imageD : List (Bundle × Bool) :=
  [(0, false), (0, false), (BitVec.ofNat 256 (2 + 9 * 2 ^ 32 + 4 * 2 ^ 64 + 8 * 2 ^ 96), true),
   (BitVec.ofNat 256 (1 * 2 ^ 64 + 2 * 2 ^ 96), true), (0, true)]

def sTable : State :=
  let s := sB (fun l => { l with image := { l.image with im := imageD } })
    (fun k => { k with spad := [(0, 7), (1, 1), (8, 0x80)], im := imageD.mapIdx (fun i w => (i, { bits := w.1, pool := w.2 })) }) id id
  { s with frame := { s.frame with lit := 64 } }

theorem test_meets_loop : (∀ m, m < 6 → (sTable.frame.old.loops.get m {}).run = false ∨ (sTable.frame.old.loops.get m {}).last ≠ sTable.frame.pc) ∧
    sTable.frame.pc + (4 : BitVec 11).toNat < (imageOf sTable sTable.frame.core sTable.frame.ctx).im.length := by decide +kernel

theorem test_meets_loopm_and_dispatch : loopmGate 3 0 4 sTable = .go ∧ dispatchGate sTable = .go ∧
    (let bs := dtabBytes sTable 0 0 2
     (∀ i, i < fieldAt bs 0 4 → fieldAt bs (8 + 4 * i) 4 < (sTable.srcS 1).toNat) ∧
      (∀ j, j < 1 → fieldAt bs (8 + 4 * j) 4 < (sTable.srcS 2).toNat) ∧ (sTable.srcS 2).toNat ≤ fieldAt bs (8 + 4 * 1) 4) := by decide +kernel

/-- The context's stores are acknowledged and its commands done. -/
def quietA (s : State) : Bool :=
  enginesDone s.me && !unacked s s.frame.core s.frame.ctx 2 && (s.core s.frame.core).wbuf.all (fun st => st.ctx != s.frame.ctx)

theorem test_meets_leaving :
    (let s := sB (fun l => { l with n := 2 }) id id id
     leaveGate s = .go ∧ s.launchOf s.frame.core s.frame.ctx = some (launchA s) ∧ s.me.released = [] ∧ s.me.arch.held = [] ∧ quietA s = true ∧
      (launchA s).finished + 1 < (launchA s).n) ∧
    (let s := sB id (fun k => { k with wbuf := [{ core := 0, ctx := 0, place := .hbm 0, cells := [] }] }) id id
     leaveGate s = .go ∧ s.launchOf s.frame.core s.frame.ctx = some (launchA s) ∧ s.me.released = [] ∧ s.me.arch.held = [] ∧
      ∃ st ∈ (s.core s.frame.core).wbuf, st.core = s.frame.core ∧ st.ctx = s.frame.ctx) := by decide +kernel

theorem test_meets_waitt : (7 : BitVec 3).toNat < sA.me.win.tcount ∧ (sA.me.eng 7).tl < (sA.srcCount 2).toNat ∧
    (sA.srcCount 0).toNat ≤ (sA.me.eng 7).tl := by decide +kernel

/-- A descriptor of point 0 for core 0 of package 0, and the image's template of it. -/
def scopeA : List Byte := layout 160 [(0x20, [1]), (0x60, [1])]
def sScope : State :=
  sB (fun l => { l with image := { l.image with scopesT := [(8, scopeA)] } })
    (fun k => { k with spad := [(0x20, 1), (0x60, 1)] }) id (fun c => { c with scopeTab := 0x4000 })

theorem test_meets_scopes : scopeSetGate 8 3 sScope = .go ∧ scopeTemplate sScope (8 : BitVec 5).toNat = some scopeA ∧
    scopeLoadGate 8 sScope = .go := by decide +kernel

theorem test_meets_sluice :
    (let s := sB (fun l => { l with sluiceCount := 1 }) id id id
     s.launchOf s.frame.core s.frame.ctx = some (launchA s) ∧ s.me.sluiceCount < (launchA s).sluiceCount) ∧
    sA.launchOf sA.frame.core sA.frame.ctx = some (launchA sA) ∧ (launchA sA).sluiceCount ≤ sA.me.sluiceCount := by decide +kernel

-- the address slot

/-- The page of HBM that s4 names, and its first bytes. -/
def pageA : Target := { place := .hbm 0x11000, page := some (0, 0, 65536) }

theorem test_meets_loads : sA.targetOf (sA.eaX 3 0) .read = some { place := .spad 0 0 } ∧ sA.targetOf (sA.eaX 4 0) .read = some pageA ∧
    (∀ n, n = 1 ∨ n = 2 ∨ n = 4 ∨ n = 8 → loadGate n 6 3 0 0 0 0 sA = .go ∧ loadGate n 0 4 0 0 4 1 sA = .go) ∧
    ownSpad 0 (.spad 0 0) = true ∧ ownPending sA 0 0 pageA 8 = false := by
  refine ⟨by decide +kernel, by decide +kernel, ?_, by decide +kernel, by decide +kernel⟩
  rintro n (rfl | rfl | rfl | rfl) <;> decide +kernel

theorem test_meets_stores : sA.targetOf (sA.eaX 3 0) .write = some { place := .spad 0 0 } ∧ sA.targetOf (sA.eaX 4 0) .write = some pageA ∧
    ∀ n, n = 1 ∨ n = 2 ∨ n = 4 ∨ n = 8 → storeGate n 3 0 0 0 sA = .go ∧ storeGate n 4 0 0 0 sA = .go ∧ storeGate n 4 0 4 2 sA = .go := by
  refine ⟨by decide +kernel, by decide +kernel, ?_⟩
  rintro n (rfl | rfl | rfl | rfl) <;> decide +kernel

/-- Word 0 of the scratchpad full, word 1 empty. -/
def sFull : State := sB id (fun k => { k with spad := [(0, 7)], full := [0] }) (fun a => { a with s := a.s.set 6 0x00FF000000000004 }) id

theorem test_meets_full_empty : spadOf (sFull.targetOf (sFull.eaX 3 0) .both) = some (0, 0) ∧ sFull.me.served = none ∧
    0 ∈ ((performAllLoads sFull 0 0).core 0).full ∧ feFormGate true true .ldfull 2 3 0 0 0 sFull = .go ∧
    feFormGate true true .ldtake 2 3 0 0 0 sFull = .go ∧ feFormGate false false (fun w => .stforce w (sFull.srcW 2)) 2 3 0 0 0 sFull = .go ∧
    feFormGate false true .fetag 2 3 0 0 0 sFull = .go ∧ feFormGate false false (fun w => .feset w ((sFull.srcS 2).getLsbD 0)) 2 3 0 0 0 sFull = .go ∧
    spadOf (sFull.targetOf (sFull.eaX 6 0) .both) = some (0, 4) ∧ 1 ∉ ((performAllLoads sFull 0 0).core 0).full ∧
    feFormGate true false (fun w => .stfill w (sFull.srcW 2)) 2 6 0 0 0 sFull = .go := by decide +kernel

theorem test_meets_ordered_full_empty : feFormGate true true .ldfull 2 3 0 4 1 sFull = .go ∧ feFormGate true true .ldtake 2 3 0 4 1 sFull = .go ∧
    feFormGate true false (fun w => .stfill w (sFull.srcW 2)) 2 6 0 4 2 sFull = .go ∧
    feFormGate false false (fun w => .stforce w (sFull.srcW 2)) 2 3 0 4 2 sFull = .go := by decide +kernel

theorem test_meets_atomics : spadOf (sA.targetOf (sA.ea 3) .both) = some (0, 0) ∧ sA.me.served = none ∧ sA.me.redAt = none ∧
    (∀ op, op < 10 → atomGate (sA.ea 3) op 4 0 0 true sA = .go ∧ atomGate (sA.ea 3) op 8 0 0 true sA = .go) ∧
    (∀ op, op < 13 → 9 < op → atomGate (sA.ea 3) op 4 0 0 true sA = .go ∧ atomGate (sA.ea 3) op 4 0 0 false sA = .go) ∧
    (∀ op, op < 8 → atomGate (sA.ea 3) op 8 0 0 false sA = .go) ∧ ldqGate 0 1 sA = .go := by decide +kernel

theorem test_meets_atomics_at_the_home : sA.targetOf (sA.ea 4) .both = some pageA ∧ sA.me.served = none ∧ sA.me.redAt = none ∧
    atomPlace (performAllLoads sA 0 0) 0 (sA.scopeNow (4 : BitVec 5).toNat).point (.hbm 0x11000) = .home 0x11000 ∧
    (∀ op, op < 10 → atomGate (sA.ea 4) op 4 4 0 true sA = .go ∧ atomGate (sA.ea 4) op 8 4 0 true sA = .go) ∧
    (∀ op, op < 13 → 9 < op → atomGate (sA.ea 4) op 4 4 0 true sA = .go ∧ atomGate (sA.ea 4) op 4 4 0 false sA = .go) ∧
    (∀ op, op < 8 → atomGate (sA.ea 4) op 4 4 0 false sA = .go ∧ atomGate (sA.ea 4) op 8 4 0 false sA = .go) ∧
    atomGate (sA.ea 4) 9 16 4 0 true sA = .go ∧ ldqGate 6 1 sA = .go ∧ ldqGate 6 2 sA = .go := by decide +kernel

theorem test_meets_ordered_atomics : (∀ o : BitVec 3, o.toNat ≤ 3 → (∀ op, op < 13 → atomGate (sA.ea 3) op 4 4 o true sA = .go ∧
      atomGate (sA.ea 4) op 4 4 o true sA = .go) ∧ atomGate (sA.ea 3) 9 8 4 o true sA = .go ∧ atomGate (sA.ea 4) 9 16 4 o true sA = .go) ∧
    (∀ op, op < 8 → atomGate (sA.ea 3) op 8 4 2 false sA = .go ∧ atomGate (sA.ea 4) op 8 4 2 false sA = .go) ∧
    (∀ op, op < 13 → 9 < op → atomGate (sA.ea 3) op 4 4 2 false sA = .go ∧ atomGate (sA.ea 4) op 4 4 2 false sA = .go) ∧
    acquireOf sA 4 1 ≠ none := by decide +kernel

theorem test_meets_fences : fenceGate 4 false sA = .go ∧ fenceGate 6 true sA = .go ∧ 3 ≤ (sA.scopeNow (6 : BitVec 5).toNat).point := by decide +kernel

theorem test_meets_tickets : spadOf (sA.targetOf (sA.ea 3) .both) = some (0, 0) ∧ tktGate (sA.ea 3) 0 0 sA = .go ∧ ldqGate 6 1 sA = .go ∧
    tktWaitGate 3 0 0 0 sA = .go := by decide +kernel

/-- Two contexts wait at the dispenser at 0: what `tkt.serve` makes SERVING reaches the ticket of one and not that of the other. -/
def sTickets : State :=
  { sA with waiters := [{ place := .spad 0 0, kind := 0, core := 0, ctx := 1, ticket := 1 }, { place := .spad 0 0, kind := 0, core := 0, ctx := 2, ticket := 2 }] }

theorem test_meets_ordered_tickets : tktGate (sA.ea 3) 4 1 sA = .go ∧ tktGate (sA.ea 3) 4 2 sA = .go ∧ tktWaitGate 3 0 4 1 sA = .go ∧
    unacked sA 0 0 (sA.scopeNow 4).point = false ∧ tktGate (sTickets.ea 3) 4 2 sTickets = .go ∧
    (let s0 := settlePlace (performAllLoads sTickets 0 0) 0 (.unit 0 0) (.spad 0 0) 8
     let serving := (Mem.nat (s0.core 0).spad 0 8 / 2 ^ 32 + 1) % 2 ^ 32
     sTickets.waiters.map (fun w => decide ((serving + 2 ^ 32 - w.ticket.toNat) % 2 ^ 32 < 2 ^ 31) &&
       isMember (sTickets.scopeNow 4) w.core w.ctx) = [true, false]) := by decide +kernel

theorem test_meets_barriers : sA.launchOf sA.frame.core sA.frame.ctx = some (launchA sA) ∧ barGate 0 0 0 0 sA = .go ∧
    (∀ l : BitVec 3, l ≠ 0 → l.toNat < 6 → barGate l 3 0 0 sA = .go ∧ barWaitGate l 3 0 0 sA = .go) := by decide +kernel

theorem test_meets_ordered_barriers : barGate 0 0 4 2 sA = .go ∧ barWaitGate 0 0 4 1 sA = .go ∧ barWaitGate 0 0 0 0 sA = .go ∧
    ∀ l : BitVec 3, l ≠ 0 → l.toNat < 6 → barGate l 3 4 2 sA = .go ∧ barWaitGate l 3 4 1 sA = .go := by decide +kernel

/-- A stream descriptor of one dimension with 32 lanes of FP32, and a handle descriptor of four slots, as bytes. -/
def streamA : List Byte := layout 64 [(9, [1]), (0xB, [32]), (0x10, [4]), (0x24, [128])]
def handleA : List Byte := layout 32 [(8, [128]), (0xC, [4])]

/-- Both stand in the scratchpad and among the image's templates; handle 0 of every group has a free slot and a filled one. -/
def sDesc : State :=
  let s := sB (fun l => { l with image := { l.image with streamsT := [streamA], handlesT := [handleA] } })
    (fun k => { k with spad := [(9, 1), (0xB, 32), (0x10, 4), (0x24, 128), (0x108, 128), (0x10C, 4)] })
    (fun a => { a with s := a.s.set 6 0x00FF000000000100, latches := [(16, { pos := 5 })],
                       handles := (List.range 8).map (fun g => (8 * g, { desc := handleOfBytes handleA, produced := 2, consumed := 1 })) }) id
  s

theorem test_meets_bindings : sbindGate 0 0 3 0 sDesc = .go ∧ sbindGate 1 3 3 1 sDesc = .go ∧
    descBytes sDesc (imageOf sDesc 0 0).streamsT 0 (sDesc.ea 3) 64 = some streamA ∧
    descBytes sDesc (imageOf sDesc 0 0).streamsT 1 (sDesc.ea 3) 64 = some streamA ∧ stopGate 0 7 0 sDesc = .go ∧ stopGate 1 3 2 sDesc = .go ∧
    (let s := sB id id id (fun c => { c with qFault := [(3, 0x06)] })
     stopGate 1 3 0 s = .trap (namedFault s 1 3 0) ∧ namedFault s 1 3 0 ≠ 0) := by
  decide +kernel

theorem test_meets_handles : cbinitGate 0 6 0 sDesc = .go ∧ cbinitGate 5 6 1 sDesc = .go ∧
    descBytes sDesc (imageOf sDesc 0 0).handlesT 0 (sDesc.ea 6) 32 = some handleA ∧
    descBytes sDesc (imageOf sDesc 0 0).handlesT 1 (sDesc.ea 6) 32 = some handleA ∧
    (let s := { sDesc with frame := { sDesc.frame with hdr := 0x200000, lit := 1 } }
     cbadvGate 1 0 0 s = .go ∧ cbadvGate 0 0 0 s = .go) := by decide +kernel

-- group-table entries

/-- The entry of group 2 in an index of class C2; mask m1 has lane 3 only, and the RBQ has one entry. -/
def atGroup (s : State) : State := { s with frame := { s.frame with pos := .lg 2, cls := 2 } }
def sLane : State :=
  atGroup (sB id (fun k => { k with spad := [(0x1000, 7)], full := [1024] })
    (fun a => { a with masks := [(17, 8)], rbq := [0], queues := [(16, {})], v := [(128, 1 <<< 96)] }) id)

theorem test_meets_lane_entries : entGate (ent 0 0 0 0 63 0 0 0) false [] sLane = .go ∧ entGate (ent 0 48 0 0 63 1 0 0) false [] sLane = .go ∧
    entGate (ent 0 0 0 0 63 0 0 4) ((4 : BitVec 22).toNat % 8 == 4) [] sLane = .go ∧
    sLane.me.arch.queues.find (8 * sLane.frame.grp + ((48 : BitVec 6).toNat - 48)) = some {} := by decide +kernel

theorem test_meets_saturation :
    (let values (v : VReg) : List Val := (List.range 32).map (fun l => val32 (laneOf v l).toNat)
     let s (v : VReg) : State := atGroup (sB id id (fun a => { a with v := [(128, v)] }) id)
     entGate (ent 0 0 0 63 63 0 0 0) false [] (s (0x7F800000 <<< 96)) = .go ∧
     Val.nan ∉ values ((s (0x7F800000 <<< 96)).entSrc 0) ∧ (values ((s (0x7F800000 <<< 96)).entSrc 0)).getD 3 .nan = .inf false ∧
     Val.nan ∈ values ((s (0x7F800000 <<< 96 ||| 0x7FC00000)).entSrc 0)) := by decide +kernel

theorem test_meets_scratchpad_entries : entGate (ent 0 0 63 63 63 0 0 0) false (spadGates sLane (ent 0 0 63 63 63 0 0 0) false true false) sLane = .go ∧
    entGate (ent 0 0 63 0 63 1 0 0) false (spadGates sLane (ent 0 0 63 0 63 1 0 0) true true false) sLane = .go ∧
    entGate (ent 0 63 0 63 63 0 7 0) false (spadGates sLane (ent 0 63 0 63 63 0 7 0) false false true) sLane = .go ∧
    entGate (ent 0 63 63 0 1 1 0 0) false (spadGates sLane (ent 0 63 63 0 1 1 0 0) true false true) sLane = .go := by decide +kernel

/-- The joint request of its bundle has been served. -/
def sUnit : State := { sLane with frame := { sLane.frame with joint := true } }

theorem test_meets_unit_entries : sUnit.lanes (ent 0 0 63 63 63 1 0 0) = BitVec.ofNat 32 (2 ^ 3) ∧
    sUnit.frame.joint = true ∧ sUnit.me.served = none ∧ entryGate (.spldFull (ent 0 0 63 63 63 1 0 0)) { sUnit with cores := sUnit.cores.map (fun k => (k.1, { k.2 with full := [3] })) } = .go ∧
    entryGate (.spstEmpty (ent 0 63 0 63 63 1 0 0)) sUnit = .go ∧ 3 ∉ (sUnit.core 0).full ∧
    entryGate (.spatomAdd (ent 0 0 63 0 1 1 0 0)) sUnit = .go := by decide +kernel

/-- FIFOs of group 2 with one filled slot of BF16 elements; the B side of a sparse pair has slots of 256 bytes. -/
def sFifo (b : Nat) : State :=
  atGroup (sB id id (fun a => { a with handles := [(22, { desc := { kind := 1, fmt := 1, slotBytes := 128, slots := 2 } }),
                                                  (23, { desc := { kind := 2, fmt := 1, slotBytes := b, slots := 2 } })] })
    (fun c => { c with engFill := [(22, 1), (23, 1)] }))

theorem test_meets_matrix_multiply : (sFifo 128).frame.old.handles.find (8 * (sFifo 128).frame.grp + 6) ≠ none ∧
    (sFifo 128).frame.old.handles.find (8 * (sFifo 128).frame.grp + 7) ≠ none ∧
    entGate (ent 0 63 63 63 63 0 0 0) false (mmaGates (ent 0 63 63 63 63 0 0 0) false (sFifo 128)) (sFifo 128) = .go ∧
    (sFifo 256).frame.old.handles.find (8 * (sFifo 256).frame.grp + 7) ≠ none ∧
    entGate (ent 0 63 63 63 63 0 0 0x200000) false (mmaGates (ent 0 63 63 63 63 0 0 0x200000) true (sFifo 256)) (sFifo 256) = .go := by
  decide +kernel

theorem test_meets_tile_entries : entryGate (.mzero (ent 0 63 63 63 63 0 0 0x1C0000)) sLane = .go ∧
    entryGate (.mfeed (ent 0 63 40 63 63 0 0 0xE00)) sLane = .go ∧
    (let e := ent 7 40 63 63 63 0 0 0x200E00
     entryGate (.mdrain e) sLane = .go ∧ ∀ i, i < 8 → (8 * (e.d.toNat / 8 + i / 8) + e.d.toNat % 8 + i % 8) < 48) ∧
    entryGate (.vblk (ent 0 0 8 63 63 0 0 0x028E00)) sLane = .go := by decide +kernel

-- the broadcast, select and engine slots

/-- Index 5 declared in the front bank, with an entry in group 1. -/
def indexA : Index := { cls := 1, commit := false, entries := [0, 0x04803EF3F0000000, 0, 0, 0, 0, 0, 0] }
def sBank : State := sB id (fun k => { k with front := [(5, indexA)] }) id id

theorem test_meets_broadcast : (sBank.core 0).front.find (5 : BitVec 10).toNat = some indexA ∧ (sBank.core 0).owner = some sBank.me.launch ∧
    ((Pos.lg 1, Instr.vadd (ent 0 0 62 60 63 0 0 0)) ∈ groupForms sBank 0 5 [0, 1]) ∧
    Gate.pick [regsGate [47] sBank, colMarkGate 7 [47] sBank] = .go := by decide +kernel

theorem test_meets_columns : Gate.pick [regsGate [0, 47] sA, colMarkGate 7 [0, 47] sA, colGate [7] sA] = .go ∧
    Gate.pick [regsGate [0, 47] sA, colGate [7] sA] = .go ∧ colGate (colRange 0 7) sA = .go := by decide +kernel

/-- Blocks of triggers at 0 and 0x40: hold a `tload` until TL of engine context 1 is at least 0, and at least 3. -/
def sTrig : State :=
  sB id (fun k => { k with spad := [(0x10, 1), (0x11, 5), (0x50, 1), (0x51, 5), (0x58, 3)] })
    (fun a => { a with s := a.s.set 6 0x00FF000000000040 }) id

/-- Watched context and threshold of the trigger whose block register `r` names. -/
def heldAt (r : BitVec 5) : Option (Nat × Nat) :=
  match (acceptBytes sTrig 0 0 (sTrig.srcS r).toNat 56).res with
  | .ok b => (trigHeld sTrig 0 1 b).toOption.map (fun h => (h.watch, h.thresh))
  | _ => none

theorem test_meets_engine_commands : engGate noBlock 16 7 4 true sTrig = .go ∧ engGate (sTrig.srcS 3).toNat 16 0 0 false sTrig = .go ∧
    trigGate (sTrig.srcS 3).toNat 0 sTrig = .go ∧ trigGate (sTrig.srcS 6).toNat 0 sTrig = .go ∧
    heldAt 3 = some (1, 0) ∧ heldAt 6 = some (1, 3) := by decide +kernel

-- issue and the machinery of a core

/-- `add s0, s0, s0` alone in a bundle, about to issue on core 0. -/
def sIssue : State := (State.reset.withFetchWord 32 0x04000000).atEvent { core := 0 }

theorem test_meets_bundle_issue :
    (let s1 := sIssue.modCore 0 (fun c => { c with selCtx := 0, selHeld := 1 })
     let w : ImWord := { bits := probeBundle 32 0x04000000 }
     let b := w.bits
     let u := openFrame s1 0 0 b
     select sIssue 0 = some (0, 1) ∧ (s1.ctx 0 0).issueAt ≤ (sIssue.core 0).cycle ∧ (s1.ctx 0 0).ckOwed = 0 ∧ (s1.ctx 0 0).deferred = 0 ∧
      (s1.ctx 0 0).drain = false ∧ fetch s1 0 0 = some w ∧ executes (hdrOf b) (s1.ctx 0 0).arch = true ∧ issueCause u 0 0 w true = 0 ∧
      operandStall u 0 0 b = false ∧ overLimit u 0 0 b = false ∧ bundleCommits u 0 b = false ∧
      Gate.pick ((bundleParts u 0 b).map (·.1)) = .go ∧ jointWaits u b = false) ∧
    select State.reset 0 = none ∧ residents (State.reset.core 0) = [] ∧ State.reset.throttleOf 0 = 0 := by decide +kernel

/-- The frame that a step opens, and what comes of its only form. -/
def opened : State :=
  match exec .bundleIssue sIssue with
  | .next u => u
  | _ => sIssue

theorem test_meets_a_step : (State.reset.withFetchWord 32 0x04000000).agenda = [(.bundleIssue, { core := 0 })] ∧
    (State.reset.withFetchWord 32 0x04000000).stands .bundleIssue { core := 0 } = false ∧ opened.frame.active = true ∧
    opened.frame.todo = [(.s1, .nop), (.x, .xnop), (.s0, .add 0 0 0)] ∧ opened.frame.gone = false := by decide +kernel

theorem test_a_form_of_the_frame_is_performed : ∃ w, exec (.add 0 0 0) { opened with frame := { opened.frame with todo := [], pos := .s1 } } = .next w :=
  ⟨_, rfl⟩

/-- Core 0 with its context about to issue, with changes, and the operands of an event there. -/
def sCore (fk : Core → Core) (fc : Ctx → Ctx) (e : EvArgs) : State :=
  ((sIssue.modCtx 0 0 fc).modCore 0 fk).atEvent e

theorem test_meets_core_events :
    (let s := sCore (fun k => { k with cycle := 5 }) (fun c => { c with inflight := [{ group := 7, dest := .vreg 47, data := 1, lanes := 1, due := 4 }] }) {}
     0 < (s.core 0).cycle ∧ (s.ctx 0 0).inflight = [{ group := 7, dest := .vreg 47, data := 1, lanes := 1, due := 4 }] ∧ 4 < (s.core 0).cycle ∧
      (s.core 0).l1until ≤ (s.core 0).cycle) ∧
    (let s := sCore (fun k => { k with cycle := 5 }) (fun c => { c with inflight := [{ group := 7, dest := .vreg 47, data := 1, lanes := 1, due := 4, qsat := true }] }) {}
     (s.ctx 0 0).inflight.map (fun p => (p.due, p.qsat)) = [(4, true)]) ∧
    (let m : MmaOp := { ctx := 0, tile := 7, sparse := false, meta_ := 0, beats := 2, next := 1, due := 3, step := 1, fmtA := 1, fmtB := 1,
                        scaled := false, dataA := [], dataB := [], scaleA := [], scaleB := [], perSlot := 1 }
     let s := sCore (fun k => { k with cycle := 4, mma := [(7, [m])] }) (fun c => { c with arch := { c.arch with rngOn := true } }) { group := 7 }
     (s.core 0).mma.get 7 [] = [m] ∧ m.next < m.beats ∧ m.due ≤ (s.core 0).cycle ∧ ((s.core 0).cycle - (s.pkg 0).bootCycle) % 4 = 0 ∧
      (s.core 0).rngAt ≠ (s.core 0).cycle - (s.pkg 0).bootCycle + 1 ∧
      ((List.range 4).map (fun i => ((s.core 0).rngLast + 1 + i) % 4)).find? (fun y => rbqRoom ((s.core 0).ctx y)) = some 0) := by
  decide +kernel

theorem test_meets_column_stage :
    (let o : ColOp := { ctx := 0, lo := 0, hi := 7, j := 5, d := 6, s := 5, beats := 6, due := 3 }
     let s := sCore (fun k => { k with cycle := 3, colOps := [o] }) id {}
     (s.core 0).colOps = [o] ∧ o.due ≤ (s.core 0).cycle ∧ o.j ≤ 5) := by decide +kernel

theorem test_meets_checkpoint :
    (let s := sCore id (fun c => { c with ckOwed := 1 }) {}
     (s.ctx 0 0).released = [] ∧ (s.ctx 0 0).ckOwed = 1 ∧ drained s 0 0 = true ∧ (s.ctx 0 0).preempt = false) := by decide +kernel

/-- A store of eight bytes to HBM address 0x40. -/
def storeA : Store := { core := 0, ctx := 0, place := .hbm 0, cells := cellsOf (.hbm 0x40) (leBytes 8 77) }

/-- A load of eight bytes from HBM address 0x40 for s30, not performed. -/
def loadA : Load := { id := 1, dst := 30, target := { place := .hbm 0x40 }, size := 8 }

/-- It is the only load of the context, whose core's L1 holds some lines. -/
def sLoad (l : Load) (l1 : List Line) : State :=
  sCore (fun k => { k with l1 := l1 }) (fun c => { c with loads := [l], arch := { c.arch with sWait := [(30, 1)], ldq := [{ id := 1, val := none }] } }) {}

/-- It can be performed from what stands at its place. -/
def clean (s : State) (l : Load) : Bool :=
  decide ((s.ctx 0 0).loads = [l]) && (s.ctx 0 0).status != .resting && l.target.race == 0 && !s.marked l.target.place l.size &&
  !ownPending s 0 0 l.target l.size && !storesHit (s.die 0).slice l.target.place l.size

theorem test_meets_stores_that_drain :
    (let s := sCore (fun k => { k with hand := [storeA] }) id {}
     (s.core 0).hand = [storeA]) ∧
    (let s := (sIssue.modDie 0 (fun d => { d with slice := [storeA] })).atEvent { die := 0, idx := 0 }
     (s.die s.ev.die).slice = [storeA] ∧ storeA.place = .hbm (0x40 / 128 * 128) ∧ storeA.race = 0 ∧
      storeA.cells = cellsOf (.hbm 0x40) (leBytes 8 77)) ∧
    (let y : Store := { storeA with place := .spad 5 0x3FF80, cells := cellsOf (.spad 5 0x3FFF8) (leBytes 8 77) }
     let s := (sIssue.modDie 0 (fun d => { d with slice := [y] })).atEvent { die := 0, idx := 0 }
     (s.die s.ev.die).slice = [y] ∧ y.place = .spad 5 (0x3FFF8 / 128 * 128)) ∧
    (let s := sCore (fun k => { k with wbuf := [{ storeA with rel := true }, storeA] }) (fun c => { c with relWait := some 2 }) {}
     (s.ctx 0 0).relWait = some 2 ∧ unacked s 0 0 2 = false) := by decide +kernel

/-- A store of four bytes to the last word of a sector of a race-checked page, in a mode. -/
def storeR (mode : Nat) : Store :=
  { core := 0, ctx := 0, place := .hbm 0, cells := cellsOf (.hbm 0x7C) (leBytes 4 77), race := mode, interval := 5 }

/-- It is the only one of its slice, over a memory. -/
def sRace (mode : Nat) (m : Mem) : State :=
  { (sIssue.modDie 0 (fun d => { d with slice := [storeR mode] })).atEvent { die := 0, idx := 0 } with mem := m }

/-- Whether its sector's shadow word is of another context in the same interval; and the race log's address. -/
def racedBy (s : State) : Bool × Nat :=
  let w := Mem.nat s.mem (fabric 0 (Mem.nat s.mem (fabric 0 0x1000000) 8 + 8)) 8
  (w % 2 == 1 && bitsOf w 10 2 != 0 && (s.ctx (bitsOf w 12 9) (bitsOf w 10 2)).interval.toNat == bitsOf w 30 34,
   Mem.nat s.mem (fabric 0 0x1000008) 8)

theorem test_meets_checked_stores :
    ((sRace 1 []).die 0).slice = [storeR 1] ∧ (storeR 1).place = .hbm (0x7C / 128 * 128) ∧ (storeR 1).race ≠ 0 ∧
    (storeR 1).cells = cellsOf (.hbm 0x7C) (leBytes 4 77) ∧ 0x7C % 64 + (leBytes 4 77).length ≤ 64 ∧ (racedBy (sRace 1 [])).1 = false ∧
    (let m := Mem.put (Mem.put (Mem.put [] 0x1000000 (leBytes 8 0x3000)) 0x1000008 (leBytes 8 0x4000)) 0x3008 (leBytes 8 (2 ^ 10 + 1))
     racedBy (sRace 1 m) = (true, 0x4000) ∧ racedBy (sRace 2 m) = (true, 0x4000)) ∧
    (let m := Mem.put (Mem.put [] 0x1000000 (leBytes 8 0x3000)) 0x3008 (leBytes 8 (2 ^ 10 + 1))
     racedBy (sRace 2 m) = (true, 0)) := by decide +kernel

theorem test_meets_loads_that_return :
    (let l := { loadA with data := some 5 }
     let s := sLoad l []
     (s.ctx 0 0).loads = [l] ∧ l.raced = false ∧ l.ue = false ∧ (s.ctx 0 0).status ≠ .resting ∧ (s.ctx 0 0).arch.sWait.find 30 = some l.id ∧
      (∀ p ∈ (s.ctx 0 0).arch.sWait, p.1 = 30 ↔ p.2 = l.id) ∧ (s.ctx 0 0).arch.ldq = [{ id := l.id, val := none }]) ∧
    (let l := { loadA with data := some 5, ue := true, commit := true, acq := some (4, {}) }
     ((sLoad l []).ctx 0 0).loads = [l]) ∧
    (clean (sLoad loadA []) loadA = true ∧ (sLoad loadA []).l1Line 0 0 = none ∧ 0x40 % 128 + loadA.size ≤ 128 ∧ 0x40 / 2 ^ 52 = 0 / 512) ∧
    (let l := { loadA with target := { place := .host 0 0 0x40 } }
     clean (sLoad l []) l = true) ∧
    (let l := { loadA with target := { place := .spad 5 0x40 } }
     clean (sLoad l []) l = true) ∧
    (let y : Line := { addr := 0, data := 9, rrpv := 0 }
     clean (sLoad loadA [y]) loadA = true ∧ (sLoad loadA [y]).l1Line 0 0 = some y ∧ loadA.byp = false) ∧
    (let l := { loadA with data := some 5, raced := true }
     ((sLoad l []).ctx 0 0).loads = [l] ∧ ((sLoad l []).ctx 0 0).status = .ready) ∧
    (let s := sCore id (fun c => { c with raceReport := true }) {}
     (s.ctx 0 0).raceReport = true ∧ (s.ctx 0 0).deferred = 0) := by decide +kernel

theorem test_stores_and_loads_memories : ((sIssue.modDie 0 (fun d => { d with slice := [storeA] })).atEvent { die := 0, idx := 0 }).memWf := by
  unfold State.memWf Core.memWf
  decide +kernel

/-- Page tables in HBM: PASID 0 in use, tables at 0x2000, 0x4000, 0x6000 and 0x8000, and one leaf of 64 KiB, at virtual address 0,
whose bits are `leaf`. -/
def tables (leaf : Nat) : Mem :=
  Mem.put (Mem.put (Mem.put (Mem.put (Mem.put [] 0 (leBytes 8 0x2001)) 0x2000 (leBytes 8 0x4001)) 0x4000 (leBytes 8 0x6001)) 0x6000 (leBytes 8 0x8001))
    0x8000 (leBytes 8 leaf)

def sWalk (leaf : Nat) (fc : Ctx → Ctx) (e : EvArgs) : State := { sCore id fc e with mem := tables leaf }

theorem test_meets_traps_and_walks :
    (let s := sCore id id { num := 0x10 }
     (s.ctx 0 0).status = .ready ∧ 1 ≤ s.ev.num ∧ s.ev.num ≤ 0x10) ∧
    (let s := sWalk 0x1000F (fun c => { c with walk := some 0x20 }) {}
     s.ev.flag = false ∧ (s.ctx 0 0).walk = some 0x20 ∧ (s.ctx 0 0).migHold = none ∧ (s.die 0).tlbFind 0 0x20 = none ∧
      walk s 0 0 0x20 = .leaf 0 65536 0x1000F ∧ walk s 0 0 0x10000 = .fail) ∧
    (let s := sWalk 0x1010F (fun c => { c with walk := some 0x20 }) {}
     walk s 0 0 0x20 = .mig) ∧
    (let s := sWalk 0x1000F (fun c => { c with walk := some 0x20, migHold := some (0x20, 0) }) {}
     (s.ctx 0 0).migHold = some (0x20, 0) ∧ 0 ≤ s.tick ∧ (s.ctx 0 0).walk = some 0x20 ∧ walk s 0 0 0x20 = .leaf 0 65536 0x1000F) := by
  decide +kernel

/-- A state of the page tables whose die's TLB holds the translation of virtual address 0. -/
def withDieTlb (s : State) : State :=
  s.modDie 0 (fun d => { d with tlb := [(tlbSet 0 0 65536, [{ pasid := 0, va := 0, size := 65536, leaf := 0x1000F }])] })

theorem die_tlb_holds (s : State) (va : Nat) (h : va < 65536) :
    ((withDieTlb s).die 0).tlbFind 0 va = some { pasid := 0, va := 0, size := 65536, leaf := 0x1000F } := by
  have h0 : va / 65536 = 0 := Nat.div_eq_of_lt h
  have hd : ((withDieTlb s).die 0).tlb = [(tlbSet 0 0 65536, [{ pasid := 0, va := 0, size := 65536, leaf := 0x1000F }])] := by
    simp [withDieTlb]
  have ht : tlbSet 0 va 65536 = tlbSet 0 0 65536 := by simp [tlbSet, h0]
  simp [Die.tlbFind, pageSizes, hd, ht, tlbFind, h, Tbl.get]

theorem test_meets_waits :
    (let r : UnitReq := { core := 0, ctx := 0, ops := [.ldtake 1] }
     let s := sCore (fun k => { k with full := [1], unitQ := [r] }) id {}
     (s.core 0).unitQ[s.ev.idx]? = some r ∧ canServe (s.core 0) ((s.core 0).unitQ.take s.ev.idx) r.joint r.ops = true ∧
      (unitRun (s.core 0) r.ops).isSome = true) ∧
    (let w : Waiter := { place := .spad 0 0, kind := 0, core := 0, ctx := 0, ticket := 0 }
     let s := sCore id (fun c => { c with resend := some w }) {}
     w.kind = 0 ∧ (s.ctx 0 0).resend = some w ∧ (s.ctx 0 0).resendAt ≤ s.tick ∧
      ticketPassed (leNat (s.readPlace w.place 8)) w.ticket.toNat = true) ∧
    (let b : Barrier := { level := 1, unit := 0, id := 3, arrived := [0] }
     let s := (sCore (fun k => { k with cycle := 4 }) id { launch := 1, idx := 1, num := 0, val := 3 }).modLaunch 1 (fun l => l.setBarrier b)
     (s.launch s.ev.launch).map (fun l => phaseFull s l (l.barrier s.ev.idx s.ev.num s.ev.val) &&
       decide ((l.barrier s.ev.idx s.ev.num s.ev.val).lastOn.2 + Config.barrierCycles 1 ≤ s.cycleNow 0)) = some true) ∧
    (let b : Barrier := { level := 4, unit := 0, id := 3, arrived := [0] }
     let s := { (sCore id id { launch := 1, idx := 4, num := 0, val := 3 }).modLaunch 1 (fun l => l.setBarrier b) with tick := 3000 }
     (s.launch s.ev.launch).map (fun l => phaseFull s l (l.barrier s.ev.idx s.ev.num s.ev.val) &&
       decide ((l.barrier s.ev.idx s.ev.num s.ev.val).lastAt + Config.barrierTicks 4 ≤ s.tick)) = some true) ∧
    (let h : Held200 := { watch := 1, thresh := 2, op := 5, desc := 0, opnd := 0, sc := 0, flags := 0, snap := {} }
     let c : EngCmd := { num := 1, op := 0x16, desc := 0, opnd := 0, sc := 0, flags := 0, snap := {}, trig := some h }
     let s := sCore id (fun k => { k with ec := [(0, { issued := 1, cmds := [c] }), (1, { issued := 2, tl := 2 })] }) { num := 1 }
     (s.eng 0 0 s.ev.ectx).cmds = [c] ∧ c.num = s.ev.num ∧ h.thresh ≤ (s.eng 0 0 h.watch).tl ∧ (s.ctx 0 0).status ≠ .resting ∧
      tagWaits s 0 0 h.desc = false) := by
  decide +kernel

-- work and its distribution

/-- The launch of `sIssue` over cores 1 and 2 with changes; memory holds a process's page and a continuation record at 0x100 of it, of PC 3
and item 9. -/
def sWork (fl : Launch → Launch) (fk : Core → Core) (e : EvArgs) : State :=
  let one (l : Launch) : Launch := { l with cores := [1, 2], recs := 2, recBase := 0x100, n := 8 }
  let m := Mem.put (Mem.put (tables 0x1000F) 0x10100 (leBytes 8 3)) 0x10108 (leBytes 8 9)
  let s : State := { sIssue with launches := sIssue.launches.map (fun l => fl (one l)), mem := m }
  (s.setCore 1 (fk {})).atEvent e

/-- What the candidate of context 0 of core 1 is. -/
def cand (s : State) : Option (Nat × Nat × Nat) := (candidateFor s 1 0).map (fun k => (k.kind, k.launch.id, k.slot))

theorem test_meets_pickup :
    (let s := sWork id (fun k => { k with chunks := [{ launch := 1, lo := 2, hi := 4 }] }) { core := 1 }
     cand s = some (0, 1, 0) ∧ heldChunk (s.core 1) 1 = some { launch := 1, lo := 2, hi := 4 } ∧ (s.launch 1).bind freeSlot = some 0) ∧
    (let s := sWork (fun l => { l with used := [0, 1], readyQ := [(0, [(0, 5)])] }) id { core := 1 }
     cand s = some (1, 1, 0) ∧ ((s.launch 1).bind (fun l => readRecord s 1 l 0)).map (fun r => (fieldAt r.1 0 8, r.2)) = some (3, [])) := by
  decide +kernel

/-- Page tables as `tables`, with one leaf of 64 MiB at virtual address 0 for the HBM from 64 MiB on. There, a record with SAVE = 1 at 0x100,
whose save area at 0x1000 has a window of 48 vector registers and 8 tiles, an MXU frame and 4 KiB of scratchpad, one LDQ entry and two of the
RBQ; level 5 runs, with a stride; handle 7 of group 7 is set, and latch 0 of group 0 is bound to template 0, its next entry with fault 6. -/
def savedMem : Mem :=
  [(0x0, 1), (0x1, 32), (0x2000, 1), (0x2001, 64), (0x4000, 1), (0x4001, 96), (0x6000, 15), (0x6003, 4), (0x4000100, 3), (0x4000106,
   1), (0x4000139, 16), (0x400100D, 65), (0x4001030, 48), (0x4001031, 8), (0x4001032, 1), (0x4001039, 16), (0x4001350, 17),
   (0x4001351, 5), (0x40049C8, 13), (0x40049C9, 6), (0x4006598, 4)]

def sSaved : State :=
  { sWork (fun l => { l with used := [0, 1], readyQ := [(0, [(0, 5)])], image := { l.image with streamsT := [streamA] } }) id { core := 1 } with
    mem := savedMem }

theorem walk_saved (va : Nat) (h : va < 2 ^ 26) : walk sSaved 0 0 va = .leaf 0 (2 ^ 26) 0x400000F := by
  have h46 : va / 2 ^ 46 = 0 := Nat.div_eq_of_lt (by omega)
  have h36 : va / 2 ^ 36 = 0 := Nat.div_eq_of_lt (by omega)
  have h26 : va / 2 ^ 26 = 0 := Nat.div_eq_of_lt (by omega)
  have down (n t sh e t' : Nat) (hv : va / 2 ^ sh = 0) (hw : sSaved.hbmWord 0 (t + 8 * (0 % 1024)) = e)
      (hp : pteValid (BitVec.ofNat 64 e) = true ∧ pteLeaf (BitVec.ofNat 64 e) = false ∧ tableOk (BitVec.ofNat 64 e) = true ∧
        pteTable (BitVec.ofNat 64 e) = t') :
      walkLevels sSaved 0 va (n + 2) t sh = walkLevels sSaved 0 va (n + 1) t' (sh - 10) := by
    obtain ⟨a, b, c, d⟩ := hp
    rw [walkLevels, hv, hw]
    simp [a, b, c, d]
  have e0 : leafAt sSaved 0 0 va = walkLevels sSaved 0 va 4 0x2000 46 := by
    have : sSaved.hbmWord 0 (16 * 0) = 0x2001 := by decide +kernel
    simp only [leafAt, this]
    rfl
  have e3 : walkLevels sSaved 0 va 2 0x6000 26 = .leaf 0 (2 ^ 26) 0x400000F := by
    have : sSaved.hbmWord 0 (0x6000 + 8 * (0 % 1024)) = 0x400000F := by decide +kernel
    rw [walkLevels, h26, this, if_neg (by decide +kernel), if_pos (by decide +kernel), if_neg (by decide), if_neg (by decide +kernel)]
    rfl
  rw [walk, e0, down 2 0x2000 46 0x4001 0x4000 h46 (by decide +kernel) (by decide +kernel),
    down 1 0x4000 36 0x6001 0x6000 h36 (by decide +kernel) (by decide +kernel), e3]
  decide +kernel

theorem reach_saved (va : Nat) (h : va < 2 ^ 26) :
    reachProc sSaved 0 0 va .read = .ok { place := .hbm (0x4000000 + va), page := some (0, 0, 2 ^ 26) } := by
  have h1 : ¬ 0x00FE000000000000 ≤ va := by omega
  have h2 : ¬ 2 ^ 56 ≤ va := by omega
  have e1 : sSaved.reaches 0 (ptePkg 0x400000F) = true := by decide +kernel
  have e2 : physPlace (ptePkg 0x400000F) 0 (ptePage 0x400000F + (va - 0)) = some (.hbm (0x4000000 + va)) := by
    have h0 : ptePkg 0x400000F = 0 := by decide +kernel
    have h3 : ptePage 0x400000F = 0x4000000 := by decide +kernel
    rw [h0, h3, physPlace, if_pos (by omega), fabric]
    simp
  have e3 : sSaved.reserved (.hbm (0x4000000 + va)) = false := by
    have h0 : homeOf (0x4000000 + va) = 0 := by unfold homeOf; omega
    have h3 : (sSaved.die 0).hbmOut = false ∧ (sSaved.die 0).banksOut = [] := by decide +kernel
    simp [State.reserved, h0, h3]
  have e4 : allowed .read 0x400000F = true ∧ ptePC 0x400000F = false ∧ pteRace 0x400000F = 0 := by decide +kernel
  obtain ⟨e4, e5, e6⟩ := e4
  simp only [reachProc, h1, if_false, reachVirt, h2, walk_saved va h, leafTarget, e1, e2, e3, e4, e5, e6, Bool.not_true,
    Bool.false_eq_true]

theorem bytes_append (m : Mem) (a j k : Nat) : Mem.bytes m a (k + j) = Mem.bytes m a k ++ Mem.bytes m (a + k) j := by
  induction k generalizing a with
  | zero => simp [Mem.bytes]
  | succ k ih => rw [show k + 1 + j = k + j + 1 by omega, Mem.bytes, ih, Mem.bytes, Nat.add_assoc, Nat.add_comm 1 k]; rfl

/-- A range of the page is read from memory whole. -/
theorem read_pieces (f a n : Nat) (h : a + n ≤ 2 ^ 26) (hf : n = 0 ∨ a % 128 + n ≤ 128 * f) :
    procReadPieces sSaved 0 0 (pieces f a n) = .ok (Mem.bytes savedMem (0x4000000 + a) n) := by
  induction f generalizing a n with
  | zero =>
    have : n = 0 := by omega
    subst this; rfl
  | succ f ih =>
    unfold pieces
    split
    · next h0 => subst h0; rfl
    · next h0 =>
      have hm : ∀ p m, sSaved.marked (.hbm p) m = false := fun p m => by
        have : sSaved.poison = [] := by decide +kernel
        simp [State.marked, this]
      have hr := ih (a + min n (128 - a % 128)) (n - min n (128 - a % 128)) (by omega) (by omega)
      simp only [procReadPieces, reach_saved a (by omega), hm, hr, State.readPlace]
      have hs : sSaved.mem = savedMem := rfl
      rw [hs]
      generalize hk : min n (128 - a % 128) = k
      have hn : n = k + (n - k) := by omega
      simp only [Bool.false_eq_true, if_false]
      rw [hn, bytes_append, Nat.add_assoc, Nat.add_sub_cancel_left]

theorem len_bytes (m : Mem) (a n : Nat) : (Mem.bytes m a n).length = n := by
  induction n generalizing a with
  | zero => rfl
  | succ n ih => simp only [Mem.bytes, List.length_cons, ih]

theorem filterMap_congr {α β : Type} {f g : α → Option β} {l : List α} (h : ∀ x ∈ l, f x = g x) : l.filterMap f = l.filterMap g := by
  induction l with
  | nil => rfl
  | cons a t ih =>
    simp only [List.filterMap_cons, h a (.head _), ih fun x hx => h x (.tail _ hx)]

theorem part_bytes (m : Mem) (a : Nat) {n o k : Nat} (h : o + k ≤ n) : ((Mem.bytes m a n).drop o).take k = Mem.bytes m (a + o) k := by
  have e : n = o + (k + (n - o - k)) := by omega
  rw [e, bytes_append, bytes_append, List.drop_left' (len_bytes _ _ _), List.take_left' (len_bytes _ _ _)]

theorem procRead_saved (a n : Nat) (h : a + n ≤ 2 ^ 26) : procRead sSaved 0 0 a n = .ok (Mem.bytes savedMem (0x4000000 + a) n) := by
  have hd : sSaved.devHeld = [] := by decide +kernel
  simp only [procRead, heldWrite, hd, List.any_nil, Bool.false_eq_true, if_false]
  exact read_pieces _ a n h (by omega)

theorem readWaits_saved (a n : Nat) (h : a + n ≤ 2 ^ 26) : readWaits sSaved 0 0 a n = false := by
  simp only [readWaits, procRead_saved a n h]

/-- Parts of the groups of a save area that stands in memory. -/
theorem groupParts_bytes {α : Type} (m : Mem) (a n key cnt at_ size : Nat) (f : List Byte → Option α) (h : 0x3800 + 1024 * 7 + at_ + size * cnt ≤ n) :
    groupParts key cnt at_ size (Mem.bytes m a n) f = (List.range 8).flatMap (fun g => ((List.range cnt).filterMap (fun k =>
      (f (Mem.bytes m (a + (0x3800 + 1024 * g + at_ + size * k)) size)).map (fun y => (k, y)))).map (fun p => (key * g + p.1, p.2))) := by
  unfold groupParts partsOf
  rw [List.flatMap_def, List.flatMap_def]
  congr 1
  refine List.map_congr_left fun g hg => ?_
  congr 1
  refine filterMap_congr fun k hk => ?_
  rw [part_bytes]
  have hk' : size * k + size ≤ size * cnt := by
    have := List.mem_range.1 hk
    calc size * k + size = size * (k + 1) := by rw [Nat.mul_add, Nat.mul_one]
      _ ≤ size * cnt := Nat.mul_le_mul_left _ this
  have := List.mem_range.1 hg
  omega

/-- The save area. -/
def areaA : List Byte := Mem.bytes savedMem 0x4001000 438400

/-- Its binding that is no template, and its queued commands, are none. -/
theorem restore_goes_on : restoreWaits sSaved 0 0 0 areaA = false := by
  have hs : readWaits sSaved 0 0 (0 + 160 * 8) (160 * 24) = false := readWaits_saved _ _ (by omega)
  have hc : (List.range 8).flatMap (savedCmds areaA) = [] := by
    refine List.flatMap_eq_nil_iff.2 fun n hn => ?_
    have := List.mem_range.1 hn
    have e : fieldAt areaA (0x600 + 1088 * n + 0x10) 1 = Mem.nat savedMem (0x4001000 + (0x600 + 1088 * n + 0x10)) 1 := by
      unfold fieldAt areaA Mem.nat; rw [part_bytes _ _ (by omega)]
    have h0 : ∀ n, n < 8 → Mem.nat savedMem (0x4001000 + (0x600 + 1088 * n + 0x10)) 1 = 0 := by decide +kernel
    simp only [savedCmds, e, h0 n this, Nat.zero_mod, List.range_zero, List.map_nil]
  simp only [restoreWaits, hc, hs]
  have hb : ∀ f : List Byte → Option Nat, f = (fun b => if bitsOf (fieldAt b 8 8) 0 1 = 1 ∧ bitsOf (fieldAt b 8 8) 2 1 = 0 then some (fieldAt b 0 8) else none) →
      groupParts 8 8 0x1C0 32 areaA f = [] ∧ groupParts 8 4 0x2C0 32 areaA f = [] := by
    intro f hf
    subst hf
    unfold areaA
    rw [groupParts_bytes _ _ _ _ _ _ _ _ (by omega), groupParts_bytes _ _ _ _ _ _ _ _ (by omega)]
    decide +kernel
  simp only [(hb _ rfl).1, (hb _ rfl).2, List.nil_append, List.map_nil, List.filter_nil, List.any_nil, Bool.or_false]

/-- The launch, and its record of slot 0. -/
def launchS : Launch := (sSaved.launch 1).getD (launchA sA)
def recordS : List Byte := Mem.bytes savedMem 0x4000100 64

theorem ee0 : (pkgOf 1, launchS.pasid, launchS.recAt 0) = (0, 0, 0x100) := by decide +kernel
theorem ee1 : bitsOf (fieldAt recordS 0 8) 48 1 = 1 ∧ fieldAt recordS 0x38 8 / 128 * 128 = 0x1000 ∧ fieldAt recordS 0x18 8 = 0 := by decide +kernel
theorem ee2 : saveSize (savedWindows launchS.image.win (Mem.bytes savedMem 0x4001000 0x40)) = 438400 := by decide +kernel
theorem ee3 : Mem.bytes savedMem (0x4000000 + 0x100) 64 = recordS := rfl
theorem ee4 : Mem.bytes savedMem (0x4000000 + 0x1000) 438400 = areaA :=
  congrArg (fun a => Mem.bytes savedMem a 438400) (by decide : 0x4000000 + 0x1000 = 0x4001000)
theorem ee5 : Mem.bytes savedMem (0x4000000 + 0x1000) 0x40 = Mem.bytes savedMem 0x4001000 0x40 := rfl
theorem p3 : procRead sSaved 0 0 0x1000 438400 = .ok areaA := ee4 ▸ procRead_saved 0x1000 438400 (by omega)
theorem p2 : procRead sSaved 0 0 0x1000 0x40 = .ok (Mem.bytes savedMem 0x4001000 0x40) := procRead_saved 0x1000 0x40 (by omega)
theorem p1 : procRead sSaved 0 0 0x100 64 = .ok recordS := procRead_saved 0x100 64 (by omega)

theorem readRecord_saved {s : State} {ck slot q a at_ n : Nat} {l : Launch} {r h v : List Byte} (e : pkgOf ck = q ∧ l.recAt slot = a)
    (h1 : procRead s q l.pasid a 64 = .ok r) (hs : bitsOf (fieldAt r 0 8) 48 1 = 1) (ha : fieldAt r 0x38 8 / 128 * 128 = at_)
    (h2 : procRead s q l.pasid at_ 0x40 = .ok h) (hn : saveSize (savedWindows l.image.win h) = n)
    (h3 : procRead s q l.pasid at_ n = .ok v) (hw : restoreWaits s q l.pasid (fieldAt r 0x18 8) v = false) :
    readRecord s ck l slot = some (r, v) := by
  simp [readRecord, e.1, e.2, h1, hs, ha, h2, hn, h3, hw]

theorem record_is_read : readRecord sSaved 1 launchS 0 = some (recordS, areaA) := by
  have e0 : launchS.pasid = 0 := by decide +kernel
  refine readRecord_saved (q := 0) (a := 0x100) (at_ := 0x1000) (n := 438400) (h := Mem.bytes savedMem 0x4001000 0x40)
    (by decide +kernel) ?_ ee1.1 ee1.2.1 ?_ ee2 ?_ ?_
  · rw [e0]; exact p1
  · rw [e0]; exact p2
  · rw [e0]; exact p3
  · rw [e0, ee1.2.2]; exact restore_goes_on

theorem area_part {o k : Nat} (h : o + k ≤ 438400) : (areaA.drop o).take k = Mem.bytes savedMem (0x4001000 + o) k := part_bytes _ _ h

theorem area_field (o k : Nat) (h : o + k ≤ 438400) : fieldAt areaA o k = Mem.nat savedMem (0x4001000 + o) k := congrArg leNat (area_part h)

theorem area_not_empty : areaA ≠ [] := fun h => by
  have e := congrArg List.length h
  rw [areaA, len_bytes] at e
  exact absurd e (by decide)

theorem candidate_of_record {s : State} {ck x slot stamp : Nat} {l : Launch} {r sv : List Byte} (hl : s.launches = [l])
    (h1 : (l.phase != .running || l.frozen || !l.cores.contains ck) = false) (h2 : (freeSlot l).isNone = true)
    (h3 : l.readyQ.get (dieOf ck) [] = [(slot, stamp)]) (h4 : (!coreOpen s ck || decide (4 ≤ x) || (s.ctx ck x).status != .idle) = false)
    (h5 : (s.ctx ck x).prefer = none) (hr : readRecord s ck l slot = some (r, sv)) (h6 : sv ≠ [])
    (h7 : roomFor s ck l (savedWindows l.image.win sv) = true) :
    candidateFor s ck x = some { launch := l, prio := min (fieldAt r 0x38 1 % 128) l.prio, kind := 1, stamp := stamp, slot := slot } := by
  have e : sv.isEmpty = false := by cases sv with | nil => exact absurd rfl h6 | cons _ _ => rfl
  simp only [candidateFor, h4, preferred, h5, hl, List.flatMap_cons, List.flatMap_nil, List.append_nil, candidatesOf, h1, h2, h3, hr, h7, e,
    Bool.false_eq_true, if_false, Bool.or_true, if_true, List.filterMap_cons, List.filterMap_nil, List.nil_append, firstCand]
  rfl

theorem room_saved : roomFor sSaved 1 launchS (savedWindows launchS.image.win areaA) = true := by
  have hw : savedWindows launchS.image.win areaA = savedWindows launchS.image.win (Mem.bytes savedMem 0x4001000 0x40) := by
    have e (o k : Nat) (h : o + k ≤ 0x40) : fieldAt areaA o k = fieldAt (Mem.bytes savedMem 0x4001000 0x40) o k := by
      unfold fieldAt; rw [area_part (by omega), part_bytes _ _ h]
    simp only [savedWindows, e 0x30 1 (by omega), e 0x31 1 (by omega), e 0x32 1 (by omega), e 0x38 4 (by omega)]
  rw [hw]
  decide +kernel

theorem candidate_saved : ∃ k, candidateFor sSaved 1 0 = some k ∧ k.kind = 1 ∧ k.launch = launchS ∧ k.slot = 0 :=
  ⟨_, candidate_of_record (stamp := 5) (by decide +kernel) (by decide +kernel) (by decide +kernel) (by decide +kernel) (by decide +kernel) (by decide +kernel)
    record_is_read area_not_empty room_saved, rfl, rfl, rfl⟩

/-- A record with a save area is picked up, whose window has every register and tile. -/
theorem test_meets_pickup_of_a_save_area : (∃ k, candidateFor sSaved 1 0 = some k ∧ k.kind = 1 ∧ k.launch = launchS ∧ k.slot = 0) ∧
    readRecord sSaved 1 launchS 0 = some (recordS, areaA) ∧ areaA ≠ [] ∧ fieldAt areaA 0x30 1 = 48 ∧ fieldAt areaA 0x31 1 = 8 ∧
    bitsOf (fieldAt areaA 0x32 1) 0 1 = 1 ∧ fieldAt areaA 0x38 4 % 32 = 0 ∧ bitsOf (fieldAt areaA 8 8) 40 5 = 1 ∧
    bitsOf (fieldAt areaA 8 8) 45 3 = 2 ∧ bitsOf (fieldAt areaA 0x350 8) 4 1 = 1 := by
  refine ⟨candidate_saved, record_is_read, area_not_empty, ?_⟩
  rw [area_field 0x30 1 (by omega), area_field 0x31 1 (by omega), area_field 0x32 1 (by omega), area_field 0x38 4 (by omega),
    area_field 8 8 (by omega), area_field 0x350 8 (by omega)]
  decide +kernel

theorem test_saved_memories : sSaved.memWf := by
  unfold State.memWf Core.memWf
  decide +kernel

/-- Its last handle is set, and its first latch is bound to a template, with a fault recorded. -/
theorem test_meets_bindings_of_a_save_area :
    fieldAt ((areaA.drop (0x3800 + 1024 * 7 + 0x40 + 48 * 7)).take 48) 8 4 ≠ 0 ∧
    fieldAt ((areaA.drop (0x3800 + 0x40)).take 48) 8 4 = 0 ∧ bitsOf (fieldAt ((areaA.drop (0x3800 + 0x1C0 + 32)).take 32) 8 8) 0 1 = 0 ∧
    (let b := (areaA.drop (0x3800 + 0x1C0)).take 32
     bitsOf (fieldAt b 8 8) 0 1 = 1 ∧ bitsOf (fieldAt b 8 8) 2 1 = 1 ∧ bitsOf (fieldAt b 8 8) 3 1 = 1 ∧ bitsOf (fieldAt b 8 8) 8 8 = 6 ∧
      launchS.image.streamsT[fieldAt b 0 8 % 65536]? = some streamA ∧ streamOk (launchS.image.features.getLsbD 1) streamA = true) := by
  rw [area_part (by omega), area_part (by omega), area_part (by omega), area_part (by omega)]
  decide +kernel

theorem test_meets_preemption :
    (let s := sCore id id {}
     (s.ctx 0 0).status = .ready ∧ (s.ctx 0 0).ckOwed < 3 ∧ (s.ctx 0 0).served = none ∧ (s.ctx 0 0).deferred = 0) ∧
    (let s := sCore id (fun c => { c with status := .resting, rest := some { kind := 0 } }) {}
     (s.ctx 0 0).status = .resting ∧ atRest s 0 0 = true ∧ (s.ctx 0 0).rest = some { kind := 0 } ∧ (s.launchOf 0 0).isSome = true ∧ s.ltxs = []) := by
  decide +kernel

theorem test_meets_distribution : stealVictim [(0, (3, 3)), (1, (4, 6))] [0, 1] = some 1 ∧
    (let s := { sWork id id { launch := 1 } with tick := 6000 }
     (s.launch 1).map (stealDue s) = some true) ∧
    (let s := sWork (fun l => { l with phase := .preparing, gang := true }) id { launch := 1, core := 1 }
     (s.launch 1).map (fun l => l.phase == .preparing && !l.frozen && l.cores.contains 1 && !l.prepared.contains 1 && coreOpen s 1 && !gangLate s l &&
       roomFor s 1 l l.image.win && (idleOf (s.core 1)).isSome && (freeSlot l).isSome) = some true) ∧
    (let s := { sWork (fun l => { l with phase := .preparing, gang := true }) id { launch := 1 } with tick := 30000000 }
     (s.launch 1).map (gangLate s) = some true) ∧
    (let s := sWork (fun l => { l with phase := .preparing, gang := true, prepared := [1, 2] }) id { launch := 1 }
     (s.launch 1).map gangReady = some true ∧ s.clocked 0 = true) := by decide +kernel

/-- A core has reported its arrival at the sluice of launch 1, with a member that waits. -/
def reportsTo (s : State) (ck : Nat) : Bool :=
  (match (s.core ck).sampled with | some (q, _) => q == 1 | none => false) &&
    (coreMembers (s.core ck) 1).any (fun k => k.2.inSluice) && s.clocked (pkgOf ck)

theorem test_meets_sluice_events :
    (let s := (sCore (fun k => { k with sampled := some (1, true) }) (fun c => { c with inSluice := true }) { launch := 1 })
     (s.launch 1).map (sluiceGathered s) = some true) ∧
    (let s := ((sCore (fun k => { k with sampled := some (1, true) }) (fun c => { c with inSluice := true }) { launch := 1 }).modLaunch 1
       (fun l => { l with swapAt := some (0, true) }))
     (s.launch 1).map (fun l => l.swapAt) = some (some (0, true)) ∧ 0 ≤ s.tick ∧ (s.cores.map (·.1)).Nodup ∧ reportsTo s 0 = true ∧
      reportsTo s 1 = false) ∧
    (let s := ((sCore (fun k => { k with sampled := some (1, false) }) (fun c => { c with inSluice := true }) { launch := 1 }).modLaunch 1
       (fun l => { l with swapAt := some (0, false) }))
     (s.launch 1).map (fun l => l.swapAt) = some (some (0, false)) ∧ 0 ≤ s.tick ∧ (s.cores.map (·.1)).Nodup ∧
      members s 1 = [(0, 0)] ∧ reportsTo s 0 = true) := by decide +kernel

-- engines, streams and what settles commands

/-- A command of engine context 0 whose block is at 0x100 of the own scratchpad. -/
def cmdA (op opnd flags : Nat) : EngCmd := { num := 1, op := op, desc := 0x00FF000000000100, opnd := opnd, sc := 0, flags := flags, snap := {} }

/-- It is the only one; its block says 16 bytes from 0x200 to 0x300 of the own scratchpad. -/
def sEng (c : EngCmd) (fa : Arch → Arch) : State :=
  let block := Mem.put (Mem.put (Mem.put [] 0x110 (leBytes 8 0x00FF000000000200)) 0x118 (leBytes 8 0x00FF000000000300)) 0x120 (leBytes 8 16)
  sCore (fun k => { k with spad := block }) (fun k => { k with ec := [(0, { issued := 1, cmds := [c] })], arch := fa k.arch }) { num := 1 }

/-- Its block can be read, and what it needs. -/
def startable1 (s : State) (c : EngCmd) : Bool :=
  match (rdBlock s 0 0 c.desc (bodyBytes c)).res with
  | .ok body =>
    (match (readCommand s 0 0 { c with body := body }).res with
     | .ok m => (takeRanges s 0 0 0 c.num m.src m.dst).isSome
     | _ => false)
  | _ => false

/-- Its end is without failure and leaves the context as it is. -/
def endsWell (s : State) (c : EngCmd) : Bool :=
  match (endCmd s 0 0 0 c).res with
  | .ok (u, none) => decide (u.ctx 0 0 = s.ctx 0 0)
  | _ => false

/-- Handle 0 of group 3 alone: four slots of 128 bytes. -/
def handles3 (a : Arch) : Arch := { a with handles := [(24, { desc := handleOfBytes handleA })] }

/-- A command that has started on engine context 0, with its body. -/
def begun (op opnd flags : Nat) (body : List Byte) : EngCmd := { cmdA op opnd flags with started := true, body := zeros 16 ++ body }

/-- It alone on its context, over a memory, in a core and a launch with changes; the die's TLB holds the process's page, virtual address 0 at HBM
address 0x10000. -/
def sRun (c : EngCmd) (fk : Core → Core) : State :=
  withDieTlb ((sWalk 0x1000F (fun k => { k with ec := [(0, { issued := 1, cmds := [c] })] }) { num := 1 }).modCore 0 fk)

/-- What the statement about a completion asks of the context. -/
def completes (s : State) (c : EngCmd) : Bool :=
  decide ((s.eng 0 0 0).cmds = [c]) && c.num == s.ev.num && (s.ctx 0 0).status != .resting && c.started && c.verdict.isNone &&
  s.ltxs.isEmpty && (s.die 0).slice.isEmpty && c.struck.isEmpty

/-- Where a process's bytes lie. -/
def atA (va : Nat) : Nat := 0x10000 + va

/-- The pieces of a write translate. -/
def translates (s : State) (w : EWrite) : Bool :=
  w.mask.isNone && decide ((s.ctx 0 0).pasid = 0) && (blockPieces w.va w.bytes.length).all (fun p =>
    decide (w.va ≤ p.1) && decide (p.1 < 65536) && (aperture s 0 0 p.1).isNone &&
    decide (leafTarget s 0 0 p.1 0 65536 0x1000F .write = .ok { place := .hbm (0x10000 + p.1), page := some (0, 0, 65536) }))

theorem placed (s : State) (w : EWrite) (h : translates (withDieTlb s) w = true) : Placed (withDieTlb s) 0 0 atA w := by
  simp only [translates, Bool.and_eq_true, List.all_eq_true, decide_eq_true_eq, Option.isNone_iff_eq_none] at h
  refine ⟨h.1.1, fun p hp => ?_⟩
  obtain ⟨⟨⟨h1, h2⟩, h3⟩, h4⟩ := h.2 p hp
  refine ⟨h3, { pasid := 0, va := 0, size := 65536, leaf := 0x1000F }, false, some (0, 0, 65536), ?_, ?_⟩
  · rw [h.1.2]
    exact die_tlb_holds s p.1 h2
  · rw [h.1.2]
    have e : atA w.va + (p.1 - w.va) = 0x10000 + p.1 := by unfold atA; omega
    rw [e]
    exact h4

/-- Sixteen bytes to virtual address 0x300. -/
def writeA : EWrite := { va := 0x300, bytes := zeros 16 }

theorem test_meets_engine_start :
    (let s := sEng (cmdA 1 0 0) id
     (s.eng 0 0 0).cmds = [cmdA 1 0 0] ∧ (s.ctx 0 0).status ≠ .resting ∧ mayStart s 0 0 0 (cmdA 1 0 0) = true ∧ startable1 s (cmdA 1 0 0) = true) ∧
    (let c := cmdA 0x11 0 1
     let s := (sEng c id).modCore 0 (fun k => { k with spad := Mem.put k.spad 0x118 (leBytes 8 0x105) })
     mayStart s 0 0 0 c = true ∧ startable1 s c = true) ∧
    (let c := cmdA 0x14 0 0
     let s := sEng c id
     mayStart s 0 0 0 c = true ∧ startable1 s c = true) := by decide +kernel

/-- A `coll` of one rank: an all-reduce of 128 bytes, its member list at 0x200 of the own scratchpad. -/
def collA : EngCmd := cmdA 9 0 0
def sColl : State :=
  sCore (fun k => { k with spad := Mem.put (Mem.put (Mem.put (Mem.put (Mem.put [] 0x118 (leBytes 8 (1 * 2 ^ 16))) 0x120 (leBytes 8 0x00FF000000000200))
      0x128 (leBytes 8 0x00FF000000000400)) 0x130 (leBytes 8 0x00FF000000000600)) 0x138 (leBytes 8 128) })
    (fun k => { k with ec := [(0, { issued := 1, cmds := [collA] })] }) { num := 1 }

/-- The group that it finds as it starts, and how many others have joined. -/
def collStart : Option (List Nat × Nat) :=
  match (rdBlock sColl 0 0 collA.desc (bodyBytes collA)).res with
  | .ok body =>
    (match (readCommand sColl 0 0 { collA with body := body }).res with
     | .ok m =>
       (match takeRanges sColl 0 0 0 1 m.src m.dst with
        | some s1 =>
          let c1 : EngCmd := { startedWith sColl collA body m none with ntiles := 0 }
          let u := s1.modCmd 0 0 0 1 (fun _ => c1)
          (match (collGroup u 0 0 c1).res with
           | .ok g => some (g, (joinedAt sColl g (nextSeq sColl g (collRank c1)).1).length)
           | _ => none)
        | none => none)
     | _ => none)
  | _ => none

theorem test_meets_engine_start_of_a_collective : mayStart sColl 0 0 0 collA = true ∧ collStart = some ([0], 0) := by decide +kernel

theorem test_meets_engine_reads :
    (let s := sWalk 0x1000F id {}
     (s.die 0).slice = [] ∧ (blockPieces 0x7E 4).all (fun p =>
       match reachEng s 0 0 p.1 .read with
       | .ok g => decide (g.place = .hbm (0x1007E + (p.1 - 0x7E))) && !s.marked g.place p.2 && decide ((0x1007E + (p.1 - 0x7E)) / 2 ^ 52 = 0 / 512)
       | _ => false) = true) := by decide +kernel

/-- An open transaction of the context's launch with a range at home and a buffered byte, and a committed one. -/
def ltxB : Ltx := { launch := 1, pkg := 0, pasid := 0, id := 3, ranges := [(0x10400, 64, false)], stateAt := 0, deadline := 9, buffer := [(0x10400, 5)] }
def ltxC : Ltx := { ltxB with state := 1, homes := [0], commit := some (0, 0, 0, 1) }

theorem test_meets_engine_progress :
    (let c := { cmdA 1 0x800 1 with started := true, data := zeros 256, slots := 1 }
     let s := sEng c handles3
     (s.eng 0 0 0).cmds = [c] ∧ isHdst c = true ∧ slotsLeft s 0 0 c ≠ 0 ∧
      ∀ g ∈ selectedGroups c.opnd, (s.ctx 0 0).freeSlots (8 * g + c.opnd % 8) ≠ 0) ∧
    (let c := begun 0x0F 3 0 []
     let s : State := { sWalk 0x1000F (fun k => { k with ec := [(0, { issued := 1, cmds := [c] })] }) { num := 1 } with ltxs := [ltxB] }
     (s.eng 0 0 0).cmds = [c] ∧ heldLtx s (s.ctx 0 0).launch 3 = some ltxB ∧ ltxB.state = 0 ∧ commitWaits s ltxB c = false ∧ stateWaits s ltxB = false) ∧
    (let c := { begun 0x0F 3 0 [] with ready := true }
     let s : State := { sWalk 0x1000F (fun k => { k with ec := [(0, { issued := 1, cmds := [c] })] }) { num := 1 } with ltxs := [ltxC] }
     (s.eng 0 0 0).cmds = [c] ∧ committedLtx s 0 0 0 c.num = some ltxC ∧ ltxC.homes[s.ev.idx % ltxC.homes.length]? = some 0) := by decide +kernel

theorem test_meets_engine_completion :
    (let c := { cmdA 1 0 0 with started := true, writes := [{ va := 0x00FF000000000300, bytes := zeros 16 }] }
     let s := sEng c id
     (s.eng 0 0 0).cmds = [c] ∧ endsWell s c = true ∧ (s.eng 0 0 0).done = [] ∧ (s.eng 0 0 0).tl + 1 = c.num) ∧
    (let c := { cmdA 2 0 0 with started := true, verdict := some { code := 3 } }
     let s := sEng c id
     (s.eng 0 0 0).cmds = [c] ∧ recordWaits s 0 0 0 c { code := 3 } = false ∧ (s.eng 0 0 0).done = [] ∧ (s.eng 0 0 0).tl + 1 = c.num) ∧
    (let c := { cmdA 1 0 0 with started := true, writes := [writeA] }
     completes (sRun c id) c = true ∧ isHdst c = false) ∧
    (let c := { begun 9 0 0 [] with ready := true, writes := [writeA] }
     completes (sRun c id) c = true ∧ collKind c ≤ 3) ∧
    (let c := { begun 0x0B 0 0 [] with writes := [writeA] }
     completes (sRun c id) c = true ∧ atWindow (sRun c id) 0 0 0 c.num = false) := by decide +kernel

theorem test_meets_engine_completion_places : ∀ c, translates (sRun c id) writeA = true → ∀ w ∈ [writeA], Placed (sRun c id) 0 0 atA w := by
  intro c h w hw
  rw [List.mem_singleton.1 hw]
  exact placed _ _ h

theorem test_writes_translate : translates (sRun { cmdA 1 0 0 with started := true, writes := [writeA] } id) writeA = true := by decide +kernel

/-- An image of index 5 alone, empty, of class 0; and one of no index. -/
def tableA : List Byte := layout 96 [(0, [5]), (2, [1])]

theorem test_meets_table_commands :
    (let c := { begun 5 0 0 [] with data := tableA }
     let s := sRun c id
     completes s c = true ∧ (s.core 0).sampled = none ∧ portBusy s 0 c = false ∧ tableRefusal (declares s 0 0 1) (s.core 0).sealed c.data = none) ∧
    (let c := { begun 5 0 0 [] with data := zeros 16 }
     let s := sRun c id
     completes s c = true ∧ portBusy s 0 c = false ∧ (tableRefusal (declares s 0 0 1) (s.core 0).sealed c.data).isSome = true ∧
      recordWaits s 0 0 0 c { code := 0, detail := c.word 0x10 } = false) ∧
    (let c := begun 6 0 0 []
     completes (sRun c id) c = true ∧ portBusy (sRun c id) 0 c = false) ∧
    (let c := { begun 7 0 0 (layout 16 [(9, [1])]) with data := zeros 64 }
     completes (sRun c id) c = true) ∧
    (let c := { begun 8 0 0 (layout 0x20 [(0x10, [1])]) with data := zeros 33 }
     let s := sRun c id
     completes s c = true ∧ ((s.core 0).bases.find (s.ctx 0 0).launch).isSome = true) := by decide +kernel

/-- `ltx.open` of transaction 3 with one range, of 64 bytes at virtual address 0x400; its block lies at 0x100 of the process. -/
def openA : EngCmd :=
  { begun 0x0E 0 0 (layout 0x18 [(0, [3, 0, 1])]) with desc := 0x100, data := leBytes 8 0x400 ++ leBytes 8 64 }
def sOpen : State := sWalk 0x1000F (fun k => { k with ec := [(0, { issued := 1, cmds := [openA] })] }) { num := 1 }

theorem test_meets_transactions :
    (completes sOpen openA = true ∧ (match (ltxRanges sOpen 0 0 openA).res with | .ok rs => decide (rs = [(0x10400, 64, false)]) | _ => false) = true) ∧
    (let c := { begun 0x0F 3 0 [] with ready := true }
     let y := { ltxC with homes := [] }
     let s : State := { sRun c id with ltxs := [y] }
     (s.eng 0 0 0).cmds = [c] ∧ committedLtx s 0 0 0 c.num = some y ∧ y.homes = []) ∧
    (let c := begun 0x10 3 0 []
     let s : State := { sRun c id with ltxs := [ltxB] }
     (s.eng 0 0 0).cmds = [c] ∧ heldLtx s (s.ctx 0 0).launch (c.opnd % 65536) = some ltxB ∧ ltxB.state = 0 ∧ ({ ltxB with state := 2 } : Ltx).state ≠ 0) := by
  decide +kernel

/-- Its ranges and its state word under the die's TLB. -/
theorem test_transaction_opens_where_it_says : translates (withDieTlb sOpen) { va := addr64 (openA.desc + 0x20), bytes := zeros 8 } = true ∧
    (atA (addr64 (openA.desc + 0x20)) + 8 ≤ 0x10400) := by decide +kernel

/-- A stream of FP32 elements, 32 lanes an entry, from an address. -/
def streamAt (a : Nat) : Binding := { desc := { base := a, dims := 1, lanes := 32, counts := [4], strides := [128] } }

/-- Its entry's targets, each plain and unmarked. -/
def reachable (s : State) (a : Access) (d : StreamDesc) (n : Nat) : Bool :=
  match entryTargets s 0 0 a (d.ranges n) with
  | .ok l => l.all (fun g => !s.marked g.1.place g.2 && g.1.race == 0)
  | .error _ => false

/-- Where an entry's pieces lie: all in the own scratchpad, or none of them. -/
def inSpad (s : State) (d : StreamDesc) (n : Nat) (own : Bool) : Bool :=
  match entryTargets s 0 0 .write (d.ranges n) with
  | .ok l => l.all (fun g => (match g.1.place with | .spad 0 _ => true | _ => false) == own)
  | _ => false

/-- Context 0 with stream 7 of group 7 bound to its latch. -/
def sStream (b : Binding) : State :=
  sWalk 0x1000F (fun c => { c with arch := { c.arch with latches := [(63, b)] } }) { group := 7, num := 7 }

theorem test_meets_stream_events :
    (let b := streamAt 2
     let s := sStream b
     (s.ctx 0 0).arch.latches.find 63 = some b ∧ fetchable (s.ctx 0 0) 63 = true ∧ b.desc.aligned (nextFetch b []) = false) ∧
    (let b := streamAt 0x00FF000000000080
     let s := sStream b
     fetchable (s.ctx 0 0) 63 = true ∧ b.desc.aligned (nextFetch b []) = true ∧ reachable s .read b.desc (nextFetch b []) = true ∧
      (s.die 0).slice = [] ∧ (s.core 0).hand = [] ∧ (s.ctx 0 0).released = []) ∧
    (let b := { streamAt 0x80 with desc := { (streamAt 0x80).desc with byp := true } }
     let s := sStream b
     fetchable (s.ctx 0 0) 63 = true ∧ b.desc.aligned (nextFetch b []) = true ∧ reachable s .read b.desc (nextFetch b []) = true ∧
      (match entryTargets s 0 0 .read (b.desc.ranges (nextFetch b [])) with
       | .ok l => l.all (fun g => match g.1.place with | .hbm a => decide (a % 128 + g.2 ≤ 128 ∧ a / 2 ^ 52 = 0) | _ => false)
       | _ => false) = true) ∧
    (let h : Held := { group := 0, queue := 0, num := 1, desc := (streamAt 2).desc, data := some 3 }
     h.desc.aligned h.num = false) ∧
    (let h : Held := { group := 0, queue := 0, num := 1, desc := (streamAt 0x80).desc, data := some 3 }
     let s := sWalk 0x1000F (fun c => { c with released := [.entry h] }) {}
     (s.ctx 0 0).released = [.entry h] ∧ h.desc.aligned h.num = true ∧ reachable s .write h.desc h.num = true ∧ inSpad s h.desc h.num false = true) ∧
    (let h : Held := { group := 0, queue := 0, num := 1, desc := (streamAt 0x00FF000000000080).desc, data := some 3 }
     let s := sWalk 0x1000F (fun c => { c with released := [.entry h] }) {}
     h.desc.aligned h.num = true ∧ reachable s .write h.desc h.num = true ∧ inSpad s h.desc h.num true = true) := by decide +kernel

theorem test_meets_a_store_behind_an_entry : ∀ st : Store,
    ((sWalk 0x1000F (fun c => { c with released := [.store st] }) {}).ctx 0 0).released = [.store st] := fun _ => rfl

/-- An open transaction of launch 1. -/
def ltxA : Ltx := { launch := 1, pkg := 0, pasid := 0, id := 3, ranges := [], stateAt := 0, deadline := 9 }

/-- A window of one member with its contribution. -/
def windowA (since timeout : Nat) : Window :=
  { id := 2, launch := 1, pkg := 0, pasid := 0, members := [0], opr := 0, fmt := 0, rfmt := 0, part := false, timeout := timeout, home := [],
    bytes := 4, maddrs := [], contribs := [{ kind := 0, elem := 0, rank := 0, val := 1, cmd := none, laddr := 0, since := since }] }

/-- A member's join of a collective of core 0 alone. -/
def joinA : CollJoin := { group := [0], seq := 0, rank := 0, core := 0, ctx := 0, ectx := 0, num := 1, key := [], src := [], since := 0 }

/-- A map of a die of its own: 12 qubits, all of them local, the array at virtual address 0. -/
def mapA : EngCmd :=
  { cmdA 0x11 0 0 with
    started := true
    body := layout 0x70 [(0x18, [12, 12]), (0x20, [1]), (0x40, (List.range 12).map (BitVec.ofNat 8) ++ List.replicate 36 0xC0)]
    data := layout 64 [(0, [1])] }

/-- Flag 0 of a tiled collective has been stored to. -/
def tiledA : EngCmd :=
  { cmdA 9 0 0 with started := true, ready := true, ntiles := 1, body := layout 0x50 [(0x10, [4]), (0x38, [1, 0, 1])], data := zeros 32 }

def entriesPass (s : State) (es : List TileEntry) : Bool :=
  match (Rd.mapM (checkTileEntry s 0 0 tiledA) es).res with
  | .ok _ => true
  | _ => false

theorem test_meets_ltx_timeout :
    (let s : State := { sCore id id { launch := 1, num := 3 } with ltxs := [ltxA], tick := 9 }
     heldLtx s 1 3 = some ltxA ∧ ltxA.state = 0 ∧ ltxA.deadline ≤ s.tick) := by decide +kernel

def sTile : State := sCore (fun k => { k with flagsOut := [0] }) (fun c => { c with ec := [(0, { issued := 1, cmds := [tiledA] })] }) { num := 1 }

theorem test_meets_tile_fire : (sTile.eng 0 0 0).cmds = [tiledA] ∧ sTile.ev.idx < tiledA.ntiles ∧
    flagSet sTile 0 (flagWord sTile 0 0 tiledA 0) = true ∧ sTile.ev.idx ∉ tiledA.fired ∧ collFanout tiledA = 1 ∧
    entriesPass sTile [tileEntry tiledA.data 0] = true := by decide +kernel

/-- An entry of a tile table: eight bytes from 0x200 of the own scratchpad to virtual address 0x300. -/
def entryA (op n : Nat) : TileEntry := { laddr := 0x00FF000000000200, raddr := 0x300, bytes := n, op := op }

/-- An ordered command, so that its additions go to their home. -/
def tiledB : EngCmd := { tiledA with snap := { point := 2 } }

theorem test_meets_fired_entries :
    (let s := sRun tiledB id
     s.ltxs = [] ∧ (s.die 0).slice = [] ∧
      (match (rdBytes s 0 0 (entryA 1 16).laddr (entryA 1 16).bytes).res with | .ok bs => decide (bs = zeros 16) | _ => false) = true) ∧
    translates (sRun tiledB id) writeA = true ∧
    (let s := sWalk 0x1000F id {}
     s.ltxs = [] ∧ (s.die 0).slice = [] ∧ (s.core 0).hand = [] ∧
      (match (rdBytes s 0 0 (entryA 2 4).laddr 4).res with | .ok _ => true | _ => false) = true ∧
      (match reachEng s 0 0 (entryA 2 4).raddr .both with
       | .ok g => decide (g.place = .hbm 0x10300 ∧ g.race = 0) && decide (atomPlace s 0 tiledB.snap.point g.place = .home 0x10300)
       | _ => false) = true) := by decide +kernel

/-- The window with one contribution of another kind: to HOME at fabric address 0x10400, or, by core 0's command 1, of its member's granule
at 0x200 of its scratchpad. -/
def windowB (kind : Nat) : Window :=
  { windowA 0 5 with
    home := [(0x10400, 0, 4096)], maddrs := [0x00FF000000000200]
    contribs := [{ kind := kind, elem := 0, rank := 0, val := 1, cmd := some (0, 0, 0, 1), laddr := 0x300, since := 0 }] }

/-- The bytes of a window's home follow each other. -/
def homeRun (w : Window) (o n h : Nat) : Bool := (List.range n).all (fun i => homeByte w (o + i) == h + i)

theorem test_meets_window_rounds :
    (let s : State := { sCore id id { num := 2 } with windows := [windowA 0 5] }
     findWindow s.ev.num s.windows = some (windowA 0 5) ∧ s.ev.val = 0 ∧ roundOf (windowA 0 5) 0 0 ≠ [] ∧ (windowA 0 5).contribs.Nodup ∧
      (roundState s (windowA 0 5) (roundOf (windowA 0 5) 0 0)).2 = true) ∧
    (let s : State := { sCore id id { num := 2 } with windows := [windowA 0 5], tick := 5 }
     s.ev.val = 0 ∧ ∀ q ∈ roundOf (windowA 0 5) s.ev.val s.ev.idx, q.since + (windowA 0 5).timeout ≤ s.tick) ∧
    (let w := windowB 0
     let s : State := { sCore id id { num := 2 } with windows := [w] }
     roundOf w 0 0 ≠ [] ∧ w.contribs.Nodup ∧ roundState s w (roundOf w 0 0) = (true, true) ∧ Memory.wf s.mem = true ∧
      homeRun w 0 (formatBits w.rfmt / 8) 0x10400 = true ∧ s.clocked (diePkg (homeOf 0x10400)) = true) ∧
    (let w := windowB 2
     let s : State := { sCore id id { num := 2, val := 2 } with windows := [w] }
     roundOf w 2 0 ≠ [] ∧ roundState s w (roundOf w 2 0) = (true, true) ∧ homeRun w 0 128 0x10400 = true ∧
      (reduceBytes w.fmt w.rfmt w.opr (1024 / formatBits w.fmt) ((roundOf w 2 0).map (fun q => leBytes 128 q.val.toNat))).length ≤ 128) ∧
    (let w := windowB 1
     let c := begun 0x0B 0 0 (zeros 0x20)
     let s : State := { sCore id (fun k => { k with ec := [(0, { issued := 1, cmds := [c] })] }) { num := 2, val := 1 } with windows := [w] }
     roundOf w 1 0 ≠ [] ∧ roundState s w (roundOf w 1 0) = (true, true) ∧ ((roundOf w 1 0).map (·.cmd)).Nodup ∧ (s.eng 0 0 0).cmds = [c] ∧
      (match (memberGranules s w 0 (roundOf w 1 0)).res with | .ok _ => true | _ => false) = true) := by decide +kernel

theorem test_meets_collective_timeout :
    (let c := { cmdA 9 0 0 with started := true }
     let s : State := { sEng c id with colls := [joinA], tick := 30000000 }
     (s.eng 0 0 0).cmds = [c] ∧ s.colls = [joinA] ∧ joinA.since + collTimeout c ≤ s.tick ∧
      ∀ r, r < joinA.group.length → memberOut s 0 (joinA.group.getD r 0) = false) := by decide +kernel

theorem test_meets_state_commands :
    (let s := (sWalk 0x1000F (fun c => { c with ec := [(0, { issued := 1, cmds := [mapA] })] }) {}).modDie 0
       (fun d => { d with ampQ := [{ core := 0, ctx := 0, ectx := 0, num := 1 }] })
     (headMember s s.ev.die).map (fun m => (m.dk, m.cmd.op, m.cmd.flags)) = some (s.ev.die, 0x11, 0) ∧
      (headMember s s.ev.die).map (fun m => membersOf m.amp.dies m.amp.pkgs) = some [s.ev.die] ∧
      (headMember s s.ev.die).map (fun m => match memberFaults s [m] with | some [none] => true | _ => false) = some true ∧ dieGone s s.ev.die = false) ∧
    (let s := (sCore id (fun c => { c with ec := [(0, { issued := 1, cmds := [cmdA 0x13 0 0] })] }) {}).modDie 0
       (fun d => { d with ampQ := [{ core := 0, ctx := 0, ectx := 0, num := 1 }] })
     (headMember s s.ev.die).isNone = true ∧ (s.die s.ev.die).ampQ.head?.isSome = true) := by decide +kernel

/-- An `ae.gate` of one qubit by matrix 0, and the state of its die: one local qubit, both amplitudes from virtual address 0x400 on. -/
def gateA : EngCmd := { cmdA 0x12 0 0 with started := true, body := layout 0x20 [(0x11, [1])] }
def ampA : Amp := { lbase := 0x400, nq := 1, lbits := 1, dbits := 0, pbits := 0, dies := [0], pkgs := [0], qmap := [0] }
def memberA : AmpMember := { dk := 0, at_ := { core := 0, ctx := 0, ectx := 0, num := 1 }, cmd := gateA, amp := ampA }
def sGate : State :=
  withDieTlb ((sWalk 0x1000F (fun c => { c with ec := [(0, { issued := 1, cmds := [gateA] })] }) {}).modDie 0
    (fun d => { d with ampQ := [memberA.at_], amp := some ampA }))

theorem test_meets_a_gate :
    headMember sGate sGate.ev.die = some memberA ∧ membersOf ampA.dies ampA.pkgs = [0] ∧ [0].filterMap (headMember sGate) = [memberA] ∧
    dieGone sGate 0 = false ∧ memberFaults sGate [memberA] = some [none] ∧ sGate.ltxs = [] ∧ (sGate.dies.map (·.1)) = [0] ∧
    (sGate.die 0).slice = [] ∧ memberA.cmd.struck = [] := by decide +kernel

theorem slices_empty : ∀ k, (sGate.die k).slice = [] := by
  intro k
  match k with
  | 0 => decide +kernel
  | k + 1 => rfl

/-- An address of the process leads, for an engine, where the translation in the die's TLB says. -/
theorem reach_by_tlb (s : State) (va : Nat) (a : Access) (h : va < 65536) (hp : ((withDieTlb s).ctx 0 0).pasid = 0)
    (ha : aperture (withDieTlb s) 0 0 va = none) :
    reachEng (withDieTlb s) 0 0 va a = leafTarget (withDieTlb s) 0 0 va 0 65536 0x1000F a := by
  have e : ((withDieTlb s).die (dieOf 0)).tlbFind 0 va = some { pasid := 0, va := 0, size := 65536, leaf := 0x1000F } := die_tlb_holds s va h
  have h56 : ¬ 2 ^ 56 ≤ va := by omega
  simp only [reachEng, h56, if_false, ha, reachVirt, hp, e]
  rfl

theorem gate_array_is_read : (Rd.mapM (readArray sGate) [memberA]).res = .ok [{ memberA with arr := [0, 0] }] := by
  have e : reachEng sGate 0 0 0x400 .read = leafTarget sGate 0 0 0x400 0 65536 0x1000F .read :=
    reach_by_tlb _ 0x400 .read (by decide) (by decide +kernel) (by decide +kernel)
  have p : blockPieces 0x400 16 = [(0x400, 16)] := by decide +kernel
  have l : leafTarget sGate 0 0 0x400 0 65536 0x1000F .read = .ok { place := .hbm 0x10400, page := some (0, 0, 65536) } := by decide +kernel
  have m : sGate.marked (.hbm 0x10400) 16 = false := by decide +kernel
  have d : l2Sees sGate (dieOf 0) { place := .hbm 0x10400, page := some (0, 0, 65536) } 16 = zeros 16 := by decide +kernel
  have r : (rdBytes sGate 0 0 0x400 16).res = .ok (zeros 16) := by
    simp only [rdBytes, p, rdPieces, e, l, m, d]
    rfl
  have a : (readArray sGate memberA).res = .ok { memberA with arr := [0, 0] } := by
    have : readArray sGate memberA = (rdBytes sGate 0 0 0x400 16).map (fun bs => { memberA with arr := ampsOf 2 bs }) := rfl
    rw [this]
    simp only [Rd.map, Rd.bind, r]
    rfl
  simp only [Rd.mapM, Rd.bind, Rd.map, a]
  rfl

/-- What the gate writes. -/
def gateDone : AmpDone := ampDone sGate [{ memberA with arr := [0, 0] }] gateA

theorem test_gate_writes_translate : gateDone.p = none ∧ (gateDone.ms.map (·.dk)) = [0] ∧
    gateDone.ms.all (fun y => decide (y.at_ = memberA.at_) && (arrayWrites y).length == 2 && (arrayWrites y).all (translates sGate)) = true := by
  decide +kernel

theorem test_meets_the_state_commands_results :
    qubitKind (ampA.qmap.getD 0 0xC0) = 0 ∧ gateTargets gateA = [0] ∧
    usable (normOf [] [{ memberA with arr := [0x3F800000, 0] }]) = true ∧ usable (normOf [] [{ memberA with arr := [0, 0] }]) = false ∧
    partner [{ memberA with arr := [0, 0], amp := { ampA with dies := [0, 1] } }, { memberA with dk := 1, arr := [0, 0] }]
      { memberA with arr := [0, 0], amp := { ampA with dies := [0, 1] } } 1 0 ≠ none := by decide +kernel

-- the host interface

/-- Package 0 after reset with changes, the page tables of PASID 0 and more memory, and the operands of an event. -/
def sHost (fk : Pkg → Pkg) (fm : Mem → Mem) (e : EvArgs) : State :=
  ({ State.reset.modPkg 0 fk with mem := fm (tables 0x1000F) }).atEvent e

/-- Registers with the host interface enabled, the host port's feature accepted, and the queue table at 0x1001000. -/
def regsOn : Tbl (BitVec 64) := [(8, 1), (0x20, 9), (0x40, 0x1001000)]

/-- Queue 0: enabled, two entries at 0x800 of the process, its consumer word at 0xC00. -/
def queue0 (m : Mem) : Mem :=
  Mem.put (Mem.put (Mem.put m 0x1001000 (leBytes 8 0x800)) 0x1001008 (leBytes 8 (2 ^ 63 + 1))) 0x1001010 (leBytes 8 0xC00)

theorem test_meets_device_events :
    (let s := sHost (fun k => { k with regs := [(0x20, 1), (0x40, 0x1001000)] }) id {}
     s.answers 0 = true ∧ s.enable 0 = false ∧ (s.pkg 0).enabled = false ∧ s.accepts 0 0 = true ∧ qtabOk s ((s.pkg 0).regs.get 0x40 0).toNat 0 = true) ∧
    (let s := sHost (fun k => { k with regs := [(0x20, 1), (0x40, 8)] }) id {}
     s.answers 0 = true ∧ s.enable 0 = false ∧ (s.pkg 0).enabled = false ∧ s.accepts 0 0 = true ∧ qtabOk s ((s.pkg 0).regs.get 0x40 0).toNat 0 = false) ∧
    (let s := sHost id id { addr := 4 }
     s.ev.addr % 8 ≠ 0) ∧
    (let s := sHost id id { addr := 0x400 }
     s.answers 0 = true ∧ s.ev.addr = 0x400 ∧ s.enable 0 = false ∧ s.accepts 0 0 = false ∧ s.launches = [] ∧ ((s.pkg 0).fwState = 0 ∨ (s.pkg 0).fwState = 3)) ∧
    (let s := sHost (fun k => { k with regs := regsOn, enabled := true }) id {}
     s.enable 0 = true ∧ (s.pkg 0).enabled = true ∧ (s.pkg 0).started = []) ∧
    (let s := sWork id id {}
     s.answers 0 = true ∧ (s.launches.map (fun l => l.pkg)).contains s.ev.pkg = true) ∧
    (let s := sHost (fun k => { k with fwState := 2 }) id {}
     (s.pkg 0).fwState = 2 ∧ (s.pkg 0).handover = 0) ∧
    (let s := sHost (fun k => { k with regs := regsOn }) id { num := 4095, val := 256 }
     s.accepts 0 3 = true ∧ bitsOf (regWord s 0 (0x90000 + 64 * 4095 + 0x20)) 63 1 = 0 ∧ bitsOf (regWord s 0 (0xD0100 + 8)) 63 1 = 0 ∧
      (s.ev.val % 2 ^ 32 + 2 ^ 32 - regWord s 0 (0xD0100 + 0x18)) % 2 ^ 32 ≤ 256) := by decide +kernel

/-- The command that a visit of queue 0 accepts. -/
def visited : QCmd := { q := 0, pasid := 0, words := List.replicate 8 0 }
def sQueue (fk : Pkg → Pkg) (e : EvArgs) : State := sHost (fun k => fk { k with regs := regsOn, enabled := true }) queue0 e

/-- Queue 0 in active slot 1023 with a command in its ring whose words are these; memory holds a counter word 5 at 0x700 of the process. -/
def sVisit (ws : List Nat) (fk : Pkg → Pkg) : State :=
  let s := sQueue (fun k => fk { k with slots := [(1023, 0)], queues := [(0, { prod := 1 })] }) { num := 1023 }
  { s with mem := Mem.put (Mem.put s.mem 0x10800 (ws.flatMap (leBytes 8))) 0x10700 (leBytes 8 5), tick := 10000000 }

/-- What the visit of slot 1023 finds: whether the command is bad, and its condition. -/
def visit (s : State) : Option (Bool × Option Bool × Bool) :=
  if serving s 0 && decide ((s.pkg 0).slots.find s.ev.num = some 0) && !(s.pkg 0).visited.contains s.ev.num && (queueEntry s 0 0).enable &&
      slotTurn s 0 s.ev.num && decide ((s.queue 0 0).cons ≠ (s.queue 0 0).prod) then
    (match procRead s 0 0 (queueEntry s 0 0).ring 64 with
     | .ok b =>
       let c : QCmd := { q := 0, pasid := 0, words := (List.range 8).map (fun i => BitVec.ofNat 64 (fieldAt b (8 * i) 8)) }
       some (badCommand c, condition s 0 c, c.trg)
     | .error _ => none)
  else none

/-- A request of the service at `kind`, and its device block: SEQ 1, DONE 0. -/
def asks (kind : Nat) (m : Mem) : Mem := Mem.put (Mem.put m 0x1000080 (leBytes 8 1)) 0x1000088 (leBytes 8 kind)

theorem test_meets_queue_events :
    (let s := sQueue id { flag := true, addr := 2 ^ 39 - 2, bytes := [1, 2] }
     s.answers 0 = true ∧ Memory.wf s.mem = true ∧ (queueEntry s 0 0).enable = true ∧ s.ev.addr + s.ev.bytes.length ≤ 2 ^ 39 ∧
      s.reserved (.hbm (fabric 0 s.ev.addr)) = false) ∧
    (let s := sQueue id { addr := 0x700, num := 8 }
     s.ev.flag = false ∧ s.ev.addr + s.ev.num ≤ 2 ^ 39 ∧ s.ev.addr ≠ 0 ∧ s.reserved (.hbm (fabric 0 s.ev.addr)) = false) ∧
    (let s := sQueue id { val := 2 }
     s.ev.addr = 0 ∧ s.ev.flag = false ∧ s.enable 0 = true ∧ 2 ^ 31 ≤ ((s.queue 0 0).prod + 2 ^ 32 - 2) % 2 ^ 32 ∧
      (2 + 2 ^ 32 - (s.queue 0 0).cons) % 2 ^ 32 ≤ 2 ^ (queueEntry s 0 0).logSize) ∧
    (let s := sQueue id { val := 3 }
     2 ^ 31 ≤ ((s.queue 0 0).prod + 2 ^ 32 - 3) % 2 ^ 32 ∧ 2 ^ (queueEntry s 0 0).logSize < (3 + 2 ^ 32 - (s.queue 0 0).cons) % 2 ^ 32) ∧
    visit (sVisit [] id) = some (false, some true, false) ∧
    (let s := sVisit [0x300, 0x700, 9] id
     visit s = some (false, some false, true) ∧ trigRoom s 0 0 = true) ∧
    visit (sVisit [5] id) = some (true, some true, false) ∧
    (let s := sQueue (fun k => { k with due := [(visited, true)] }) {}
     serving s 0 = true ∧ (s.pkg 0).due = [(visited, true)]) ∧
    (let s : State := { sQueue (fun k => { k with slots := [(0, 0)], empties := [(0, 0)] }) {} with tick := 300000 }
     unbindDue s 0 s.ev.num = true) := by decide +kernel

theorem test_meets_frame_boundaries :
    (let s : State := { sHost (fun k => { k with regs := regsOn, enabled := true }) (fun m => asks 2 (queue0 m)) {} with tick := 300000 }
     frameDue s 0 = true ∧ (s.pkg 0).handover = 0 ∧ s.enable 0 = true ∧ (s.pkg 0).svc = none ∧
      s.hbmWord 0 0x1000080 ≠ s.hbmWord 0 0x10000A0 ∧ knownKind (s.hbmWord 0 0x1000088 % 256) = true ∧ (s.pkg 0).svcEarly = false) ∧
    (let s : State := { sQueue (fun k => { k with handover := 1 }) {} with tick := 300000 }
     frameDue s 0 = true ∧ (s.pkg 0).handover = 1) ∧
    (let s : State := { sQueue (fun k => { k with handover := 2 }) {} with tick := 300000 }
     frameDue s 0 = true ∧ 2 ≤ (s.pkg 0).handover ∧ s.enable 0 = true ∧ s.hbmWord 0 0x1000080 = s.hbmWord 0 0x10000A0) := by decide +kernel

/-- A launch descriptor at 0x1000 of the process: an image of one bundle at 0x2000, core 0 alone at 0x3000, one item. -/
def descriptor (m : Mem) : Mem :=
  let put (m : Mem) (a n v : Nat) : Mem := Mem.put m (0x10000 + a) (leBytes n v)
  let d := put (put (put m 0x1000 8 0x2000) 0x1008 8 0x3000) 0x1010 8 1
  let a := put (put (put (put (put (put d 0x2000 4 0x314B4C47) 0x2004 2 1) 0x200C 4 0xFFFFFFFF) 0x2024 4 1) 0x2038 4 1) 0x203C 4 2
  let t := put (put (put (put (put (put a 0x2080 2 1) 0x2088 4 0xA0) 0x208C 4 32) 0x2090 2 2) 0x2098 4 0xC0) 0x209C 4 1
  put (put t 0x3000 1 1) 0x3040 1 1

/-- A command of queue 0 with an operation, an address in word 5 and a value in word 6. -/
def qcmd (op a v : Nat) : QCmd := { q := 0, pasid := 0, words := [BitVec.ofNat 64 op, 0, 0, 0, 0, BitVec.ofNat 64 a, BitVec.ofNat 64 v, 0] }

def sCmd (c : QCmd) (fm : Mem → Mem) : State :=
  sHost (fun k => { k with regs := regsOn, enabled := true, started := [c] }) (fun m => fm (queue0 m)) {}

/-- Number of cores, items and bundles of the launch that the front end makes of a command. -/
def frontGo (s : State) (c : QCmd) : Option (Nat × Nat × Nat) :=
  match front s 0 0 c with
  | .go l => some (l.cores.length, l.n, l.image.im.length)
  | _ => none

/-- A word of the process is plain memory that a write of the device reaches now. -/
def landsAt (s : State) (va : Nat) : Bool :=
  va % 8 == 0 && !devWaits s 0 0 &&
  (match reachProc s 0 0 va .write with
   | .ok g => decide (g.place = .hbm (0x10000 + va)) && g.race == 0
   | _ => false)

theorem test_meets_command_events :
    (let s := sCmd (qcmd 0 0 0) id
     s.answers 0 = true ∧ s.enable 0 = true ∧ startable s 0 0 0 = some (qcmd 0 0 0) ∧ bitsOf ((qcmd 0 0 0).word 0) 10 1 = 0 ∧
      bitsOf ((qcmd 0x400 0 0).word 0) 10 1 ≠ 0 ∧ landsAt s ((qcmd 0x400 0 0).word 3) = true) ∧
    (let s := sCmd (qcmd 2 0x600 9) id
     startable s 0 0 2 = some (qcmd 2 0x600 9) ∧ landsAt s ((qcmd 2 0x600 9).word 5) = true) ∧
    (let s := sCmd (qcmd 1 0x1000 0) descriptor
     startable s 0 0 1 = some (qcmd 1 0x1000 0) ∧ frontEndNext s 0 (qcmd 1 0x1000 0) = true ∧ launchWaits s 0 (qcmd 1 0x1000 0) = false ∧ frontGo s (qcmd 1 0x1000 0) = some (1, 1, 1) ∧
      s.launches = []) ∧
    (let s := sCmd (qcmd 3 0x1000 0) id
     startable s 0 0 3 = some (qcmd 3 0x1000 0) ∧
      (s.launches.find? (fun l => l.pkg == 0 && l.pasid == 0 && l.desc == (qcmd 3 0x1000 0).word 5)).isNone = true) ∧
    (let s : State := { sCmd (qcmd 3 0 0) id with launches := (sWork id id {}).launches }
     startable s 0 0 3 = some (qcmd 3 0 0) ∧ (s.launches.find? (fun l => l.pkg == 0 && l.pasid == 0 && l.desc == (qcmd 3 0 0).word 5)).isSome = true ∧
      members s 1 = [] ∧ s.ltxs = [] ∧ s.launches.map (·.phase) = [.running]) ∧
    (let one (l : Launch) : Launch := { l with used := [0] }
     let s : State := { sCmd (qcmd 4 0x100 0) (fun m => Mem.put m 0x10106 [8]) with launches := (sWork one id {}).launches }
     startable s 0 0 4 = some (qcmd 4 0x100 0) ∧ readWaits s 0 0 0x100 8 = false ∧ (requeueable s 0 0 (qcmd 4 0x100 0)).map (fun r => (r.1.id, r.2.1)) = some (1, 0)) := by decide +kernel

/-- Rule 0 takes any frame of port 1 for ring 1, which is on, has two slots of 256 bytes at 0x4000 of the process, records at 0x5000, its
count word at 0x6000 and its consumer word at 0x6008; the process's page lies in host memory. -/
def rulesA : Tbl (BitVec 64) := [(0x10040, 0x9000001)]
def regsRing : Tbl (BitVec 64) :=
  [(8, 1), (0x20, 9), (0x90040, 0x4000), (0x90048, 0x5000), (0x90050, 0x6000), (0x90058, 0x6008), (0x90060, 0x8000000000000801)]

def frameA : List Byte := List.replicate 64 1

def sRing (fk : Pkg → Pkg) : State :=
  sHost (fun k => fk { k with regs := regsRing, rules := rulesA, enabled := true }) (fun _ => tables (hostBase + 0xF)) { num := 1, bytes := frameA, flag := true }

/-- A frame for ring 1, as the rule keeps it, and whether its ring runs. -/
def ringFrame (s : State) : Option (RxFrame × Bool) :=
  if s.answers 0 && !((s.pkg 0).sports.get 1 {}).out && decide (frameA.length ≤ 9216) && !isPause frameA then
    (matchRule (s.pkg 0) 1 frameA).map (fun r =>
      let w := ((s.pkg 0).rules.get (0x10000 + 128 * r + 0x40) 0).toNat
      ({ port := 1, rule := r, ring := w % 4096, at_ := s.tick, stamp := s.timeUnits 0, bytes := frameA },
        (s.pkg 0).enabled && bitsOf w 25 1 == 0 && ringOn s 0 (w % 4096)))
  else none

/-- Nothing holds it, and how many of its ring's frames are not consumed. -/
def delivers (s : State) (y : RxFrame) : Option Nat :=
  let s1 := s.count 0 (portTel 1)
  if (s.pkg 0).rx.isEmpty && !rxWaits s1 0 y then
    (match procRead s1 0 (ringPasid s 0 1) (ringWord s 0 1 0x18) 8 with
     | .ok b => some (nextFrame s 0 1 - leNat b)
     | .error _ => none)
  else none

/-- Its payload and record do not fault. -/
def writesLand (s : State) (y : RxFrame) : Bool :=
  let pay := (frameA.drop (payloadAt frameA)).take 256
  let u := ((s.count 0 (portTel 1)).devWrite 0 0 0x4000 pay).devWrite 0 0 0x5000 (frameRecord s 0 0 256 y)
  !writeFaults u 0 0 0x4000 pay.length && !writeFaults u 0 0 0x5000 64

theorem test_meets_port_events :
    (let s := sRing id
     (ringFrame s).map (fun f => (f.1.ring, f.2, delivers s f.1, writesLand s f.1)) = some (1, true, some 0, true) ∧
      ringWord s 0 1 0 = 0x4000 ∧ ringWord s 0 1 8 = 0x5000 ∧ ringWord s 0 1 0x20 % 32 = 1 ∧ bitsOf (ringWord s 0 1 0x20) 8 4 = 8) ∧
    (let s := sRing (fun k => { k with publish := [{ ring := 1, num := 0 }, { ring := 1, num := 1 }] })
     (ringFrame s).map (fun f => (f.2, delivers s f.1)) = some (true, some 2) ∧ ringWord s 0 1 0x30 + 1 < 2 ^ 64) ∧
    (let s := sRing (fun k => { k with regs := (0x70, 3) :: regsRing })
     (ringFrame s).map (fun f => (f.1.rule, f.2, delivers s f.1, writesLand s f.1)) = some (0, true, some 0, true) ∧
      bitsOf (regWord s 0 0x70) 0 1 = 1 ∧ bitsOf (regWord s 0 0x70) 1 1 = 1 ∧ bitsOf (regWord s 0 0x70) 16 12 = 0) ∧
    (ringFrame (sRing (fun k => { k with enabled := false }))).map (·.2) = some false ∧
    (ringFrame (sRing (fun k => { k with rules := [] }))).isNone = true ∧ isPause (layout 64 [(12, [0x88, 8, 0, 1])]) = true ∧
    (let s := sRing (fun k => { k with publish := [{ ring := 1, num := 2 ^ 64 - 2 }] })
     (s.pkg 0).rx = [] ∧ (s.pkg 0).publish.find? (fun y => y.ring == 1) = some { ring := 1, num := 2 ^ 64 - 2 } ∧ ringHeld s 0 1 = false ∧
      writeWaits s 0 (ringPasid s 0 1) (ringWord s 0 1 0x10) 8 = false) ∧
    (let s := sHost (fun k => { k with regs := [(0xD0100, 0x100), (0xD0108, 0x8000000000000000), (0xD0110, 1)] })
       (fun m => Mem.put (Mem.put m 0x10101 [2]) 0x10108 [60]) { num := 1 }
     bitsOf (regWord s 0 0xD0108) 63 1 = 1 ∧ regWord s 0 0xD0118 ≠ regWord s 0 0xD0110 ∧ txWaits s 0 0 0x100 = false ∧
      (txOutcome s 0 1 0 (ownRead s 0 0 (regWord s 0 0xD0100) 16)).1 = 1 ∧ (ownRead s 0 0 0x200 60).isSome = true) := by decide +kernel

/-- A service request in hand with its arguments. -/
def sSvc (kind a b : Nat) (begun : Option Nat) : State :=
  sHost (fun k => { k with svc := some { seq := 1, kind := kind, begun := begun } })
    (fun m => Mem.put (Mem.put m 0x1000090 (leBytes 8 a)) 0x1000098 (leBytes 8 b)) {}

/-- What the package holds of it. -/
def inHand (s : State) (kind : Nat) (begun : Option Nat) : Bool :=
  s.answers 0 && decide ((s.pkg 0).svc = some { seq := 1, kind := kind, begun := begun }) && decide ((s.pkg 0).handover < 2) && logRoom s 0

theorem test_meets_service_events :
    (let s := sSvc 1 (2 ^ 20 - 1) (2 ^ 64 - 1) none
     inHand s 1 none = true ∧ svcArg1 s 0 < 2 ^ 20 ∧ svcArg2 s 0 = 2 ^ 64 - 1 ∧ svcArg2 (sSvc 1 0 0x30000 none) 0 % 65536 = 0) ∧
    (let s := sSvc 1 0 0 (some 0)
     inHand s 1 (some 0) = true ∧ pagesQuiet s 0 { seq := 1, kind := 1, begun := some 0 } = true) ∧
    (let s := sSvc 2 (2 ^ 39 - 64) 1 none
     inHand s 2 none = true ∧ patternCores s 0 (svcArg1 s 0) = some []) ∧
    (let s : State := { sSvc 3 0 0 none with launches := (sWork id id {}).launches }
     inHand s 3 none = true ∧ (launchAt s 0 (svcArg1 s 0)).isSome = true ∧ (launchAt (sSvc 3 0 0 none) 0 0).isNone = true) ∧
    ((sSvc 2 0 0 (some 0)).devHeld = [] ∧ inHand (sSvc 2 0 0 (some 0)) 2 (some 0) = true ∧ inHand (sSvc 3 0 0 (some 0)) 3 (some 0) = true) ∧
    (let s := sSvc 4 0x2000 0 none
     inHand s 4 none = true ∧ patternCores s 0 (svcArg1 s 0) = some [0, 14]) := by decide +kernel

/-- PORT_OUT of a stream port with nothing to publish, and with a frame that waits to be. -/
theorem test_meets_a_stream_port_out : ((sSvc 12 33 0x200 none).pkg 0).publish.isEmpty = true ∧
    (let s := (sSvc 12 33 0x200 none).modPkg 0 (fun k => { k with publish := [{ ring := 1, num := 0, port := 1 }] })
     portRequest s 0 = some (true, 1, 2, 0) ∧ inHand s 12 none = true ∧ (s.pkg 0).publish.map (·.port) = [1]) := by decide +kernel

theorem test_meets_port_and_report_requests :
    (portRequest (sSvc 12 31 0x207 none) 0 = some (false, 31, 2, 7) ∧ portRequest (sSvc 12 33 0x400 none) 0 = some (true, 1, 4, 0) ∧
      portRequest (sSvc 12 31 0x107 none) 0 = some (false, 31, 1, 7) ∧ portRequest (sSvc 12 33 0x200 none) 0 = some (true, 1, 2, 0) ∧
      portIdle (sSvc 12 31 0x207 none) 0 31 0 = true ∧
      portIdle { sSvc 12 31 0x207 none with colls := [{ joinA with port := some 31, timeout := 9 }] } 0 31 0 = false ∧ inHand (sSvc 12 0 0 none) 12 none = true ∧
      (((sSvc 12 31 0x107 none).pkg 0).ports.get 31 {}).spare = none) ∧
    (inHand (sSvc 13 3600 0 none) 13 none = true ∧ svcArg1 (sSvc 13 2592000 0 none) 0 = 2592000 ∧ svcArg2 (sSvc 13 3600 0 none) 0 = 0) ∧
    (let s := sSvc 15 (2 ^ 39 - 32) (2 ^ 39 - 8192) none
     inHand s 15 none = true ∧ svcArg1 s 0 + 32 ≤ 2 ^ 39 ∧ svcArg2 s 0 + 8192 ≤ 2 ^ 39 ∧ svcArg2 s 0 % 64 = 0 ∧ (s.pkg 0).leaf < 2 ^ 40 ∧ Memory.wf s.mem = true ∧
      s.reserved (.hbm (fabric 0 (svcArg1 s 0))) = false ∧ s.reserved (.hbm (fabric 0 (svcArg2 s 0))) = false) := by decide +kernel

/-- The same with changes of the package, the operation's core (511) and its die. -/
def sOut (kind a b : Nat) (begun : Option Nat) (fk : Pkg → Pkg) (out : Bool) : State :=
  (((sSvc kind a b begun).modPkg 0 fk).modCore 511 (fun c => { c with closed := true })).modDie 3 (fun d => { d with out := out })

theorem test_meets_out_of_service :
    (let s := sOut 8 511 0 none id false
     inHand s 8 none = true ∧ svcArg1 s 0 = 511 ∧ svcArg2 s 0 = 0 ∧ (s.core 511).closed = true ∧ residents (s.core 511) = []) ∧
    (let s := sOut 9 511 135 none (fun k => { k with retCores := [511] }) false
     inHand s 9 none = true ∧ 511 ∈ (s.pkg 0).retCores ∧ dieOf 511 ∉ (s.pkg 0).retDies ∧ spareFree (s.pkg 0) 3 (svcArg2 s 0) = true) ∧
    (let s := sOut 10 3 1 none id false
     inHand s 10 none = true ∧ svcArg1 s 0 < 4 ∧ svcArg2 s 0 < 2 ∧ (s.pkg 0).retDies = []) ∧
    (let s := sOut 10 3 0 (some 0) id false
     inHand s 10 (some 0) = true ∧ (s.die 3).out = false ∧ svcArg2 s 0 % 2 = 0) ∧
    (let s := sOut 10 3 0 (some 0) id true
     inHand s 10 (some 0) = true ∧ (s.die 3).out = true ∧ mapSettled s 0 = true) ∧
    (let full : List Repair := List.replicate Config.repairRecords { action := 0, what := 0 }
     let v : Svc := { seq := 1, kind := 10, begun := some 0, closed := [511] }
     let s := sOut 10 3 0 (some 0) (fun k => { k with repairs := full, svc := some v }) false
     logRoom s 0 = false ∧ s.answers 0 = true ∧ (s.pkg 0).svc = some v ∧ (s.pkg 0).handover < 2 ∧ v.left = [] ∧ (s.die 3).out = false) ∧
    (let s := sOut 11 (2 ^ 39 - 1) 0 none id false
     inHand s 11 none = true ∧ svcArg1 s 0 < 2 ^ 39 ∧ svcArg2 s 0 = 0 ∧ (s.die 3).hbmOut = false ∧ (s.die 3).bankSpares.get 1 0 < 2) := by decide +kernel

theorem test_meets_machine_events :
    (let s := sHost (fun k => { k with mapSend := [(0, 511, false, true), (0, 3, true, true)] }) id {}
     s.reaches s.ev.num 0 = true ∧ (s.pkg s.ev.num).mapSend.find? (fun m => m.1 == 0) = some (0, 511, false, true)) ∧
    (let s := sCore (fun k => { k with im := [(0, { poisoned := true })] }) id {}
     ((s.core 0).im.get s.ev.addr {}).poisoned = true ∧ (imageWordAt s (s.core 0) s.ev.addr).isSome = true) ∧
    (let s := (sHost id id { idx := 7 * 2 ^ 20 + 5 }).modDie 0 (fun d => { d with rowErr := [(7 * 2 ^ 20 + 5, 4)], rowSpares := [(7, 7)] })
     4 ≤ (s.die 0).rowErr.get s.ev.idx 0 ∧ (s.die 0).rowSpares.get (s.ev.idx / 2 ^ 20) 0 < 8 ∧ logRoom s 0 = true) ∧
    (let s := sHost (fun k => { k with i3cAddr := some 9 }) id { num := 2 }
     s.answers 0 = true ∧ (s.die s.ev.die).hbmOut = false ∧ s.ev.flag = false ∧ ((s.pkg 0).ports.get 31 {}).out = false ∧
      ((s.pkg 0).ports.get 31 {}).spare = none ∧ (s.pkg 0).running = true ∧ (s.pkgs.find 0).isSome = true ∧ s.launches = [] ∧ s.ltxs = [] ∧
      (s.pkg 0).reachable = true ∧ addressed s 0 = true ∧ (s.pkg 0).i3cOff + min s.ev.num 256 ≤ 0x60) ∧
    ((sHost id id { num := 1 }).ev.num = 1 ∧ (sHost id id { num := 10 }).answers (pkgOf 0) = true ∧ (sHost id id { num := 11 }).ev.num = 11) ∧
    (let s := sCore (fun k => { k with cycle := 1 }) id { num := 5 }
     s.answers (pkgOf 0) = true ∧ (residents (s.core 0)).length = 1 ∧ ∀ c ∈ residents (s.core 0), s.edgeOf 0 c.2 < (s.core 0).pulse) ∧
    (let s := sHost (fun k => { k with reachable := false, ports := [(31, { spare := some 7 })], i3cOff := 0x68 }) id {}
     (s.pkgs.find 0).map (·.reachable) = some false ∧ ((s.pkg 0).ports.get 31 {}).spare ≠ none ∧ 0x68 ≤ (s.pkg 0).i3cOff) ∧
    (let s := sHost (fun k => { k with i3cAddr := some 9, i3cOff := 0x67, i3cLatch := some (0x60, 5) }) id { num := 1 }
     addressed s 0 = true ∧ (s.pkg 0).i3cLatch = some ((s.pkg 0).i3cOff / 8 * 8, 5) ∧ (s.pkg 0).i3cOff % 8 ≠ 0 ∧ 0 < min s.ev.num 256 ∧
      (s.pkg 0).i3cOff % 8 + 0 < 8) := by decide +kernel

-- results that the spec works out

/-- Table 2.8: worked conversions to BF16 (RN, RU, SR), E4M3, E5M2 and FP16. -/
theorem test_worked_conversions : convert 0 1 0 0 0x3F808000 = 0x3F80 ∧ convert 0 1 0 0 0x3F818000 = 0x3F82 ∧ convert 0 1 2 0 0x3F808000 = 0x3F81 ∧
    convert 0 1 4 0x7FFF 0x3F808000 = 0x3F80 ∧ convert 0 1 4 0x8000 0x3F808000 = 0x3F81 ∧ convert 0 3 0 0 0x3DCCCCCD = 0x1D ∧
    convert 0 4 0 0 0x3DCCCCCD = 0x2E ∧ convert 0 3 0 0 0x43FA0000 = 0x7E ∧ convert 0 2 0 0 0x358637BD = 0x0011 := by decide +kernel

/-- Table 2.8: worked conversions to L6. -/
theorem test_worked_l6_conversions : convert 0 5 0 0 0x40400000 = 0x16 ∧ convert 0 5 0 0 0x3F8B95C2 = 0x11 ∧ convert 0 5 0 0 0xC2C80000 = 0x3F := by
  decide +kernel

/-- The worked L6 beat term: codes 0x16 and 0x2D, scales 0x7E and 0x80, accumulator 1.0 (R54, R63). -/
theorem test_worked_l6_beat : l6Term 0x16 0x2D = -14107904 ∧
    sumRound 0 [val32 0x3F800000, Val.ofInt (-14107904) (0x7E + 0x80 - 277)] = 0xBF2E8A00 := by decide +kernel

/-- The worked block quantised to L6: 5.0, -0.3, +Inf, 0.01 (R68), and its packing. -/
theorem test_worked_l6_block : quantise 5 0 (fun _ => 0) [val32 0x40A00000, val32 0xBE99999A, val32 0x7F800000, val32 0x3C23D70A] =
    (0x7E, [0x1D, 0x2D, 0x1F, 0], true) ∧ packLane 6 [0x1D, 0x2D, 0x1F, 0] = 0x0001FB5D := by decide +kernel

/-- R58: the known answer of the generator for key 0 and fill count 0. -/
theorem test_generator_known_answer : fillEntry 0 0 1 % 2 ^ 128 = 0x9B00DBD8BC57AC4CE169C58D6627E8D5 := by decide +kernel

/-- R46, R47, R55, R62: signed zeros, NaN, and results by mode. -/
theorem test_float_corners : addF 0 0x3F800000 0xBF800000 = 0 ∧ addF 3 0x3F800000 0xBF800000 = 0x80000000 ∧
    addF 0 0x7F800000 0xFF800000 = 0x7FC00000 ∧ mulF 0 0x7F800000 0 = 0x7FC00000 ∧ addF 0 1 1 = 2 ∧ mulF 1 0x7F7FFFFF 0x40000000 = 0x7F7FFFFF ∧
    mulF 0 0x7F7FFFFF 0x40000000 = 0x7F800000 ∧ fmaF 0 0x3F800001 0x3F800001 0xBF800002 = 0x28800000 := by decide +kernel

/-- R67, Table 2.6: the exact results and the special values. -/
theorem test_lane_functions : rcpF 0x40000000 = 0x3F000000 ∧ rcpF 0 = 0x7F800000 ∧ rsqF 0x40800000 = 0x3F000000 ∧ exp2F 0x43000000 = 0x7F800000 ∧
    exp2F 0x40400000 = 0x41000000 ∧ exp2F 0xC3170000 = 0 ∧ log2F 0x41000000 = 0x40400000 ∧ log2F 0 = 0xFF800000 ∧ log2F 0xBF800000 = 0x7FC00000 := by
  decide +kernel

/-- What a register of the running context holds after a form. -/
def regAfter (n : Nat) : Host.Outcome State Fault Refusal → Option Word
  | .next t => some (t.me.arch.s.get n 0)
  | _ => none

/-- R43: division by zero; s1 = 12, s7 = 0. -/
theorem test_divide_by_zero : regAfter 6 (exec (.divn 6 1 7) sA) = some 0xFFFFFFFFFFFFFFFF ∧ regAfter 6 (exec (.remn 6 1 7) sA) = some 12 ∧
    regAfter 6 (exec (.div 6 1 7) sA) = some 0xFFFFFFFFFFFFFFFF := by decide +kernel

/-- R14: s0 and s31 read as the spec says, and wrapping: 5 - 12. -/
theorem test_scalar_wraps : regAfter 6 (exec (.sub 6 2 1) sA) = some 0xFFFFFFFFFFFFFFF9 ∧ regAfter 6 (exec (.addi 6 1 0xFFFF) sA) = some 11 ∧
    regAfter 0 (exec (.addi 0 1 1) sA) = some 0 ∧ regAfter 6 (exec (.add 6 0 1) sA) = some 12 := by decide +kernel

/-- The worked walk of chapter 15: PT4 index 0, PT3 index 4, PT2 index 0, PT1 index 0x12. -/
def walkTables (pt2 : Nat) : Mem :=
  Mem.put (Mem.put (Mem.put (Mem.put (Mem.put [] 112 (leBytes 8 0x2001)) 0x2000 (leBytes 8 0x4001)) 0x4020 (leBytes 8 0x6001)) 0x6000 (leBytes 8 pt2))
    0x8090 (leBytes 8 0x000000200003000F)

theorem test_worked_walk :
    walk { State.reset with mem := walkTables 0x8001 } 0 7 0x0000004000123456 = .leaf 0x0000004000120000 65536 0x000000200003000F ∧
    walk { State.reset with mem := walkTables 0x000000200400000F } 0 7 0x0000004000123456 = .leaf 0x0000004000000000 (2 ^ 26) 0x000000200400000F ∧
    walk { State.reset with mem := walkTables 0x000000200003000F } 0 7 0x0000004000123456 = .fail := by decide +kernel

/-- Table 8.5 and the steal round after it: CD0 takes half of CD1's range, then CD3 half of CD2's. -/
theorem test_worked_steal : [0, 3].foldl (steal [0, 1, 2, 3]) [(0, (0, 0)), (1, (433, 533)), (2, (700, 800)), (3, (0, 0))] =
    [(0, (483, 533)), (1, (433, 483)), (2, (700, 750)), (3, (750, 800))] := by decide +kernel

/-- The order of the worked sort: equal keys by tag (-0 of tag 3 before +0 of tag 4), every number before a NaN. -/
theorem test_worked_ranks : ranksBefore (mkCell 0x40400000 0) (mkCell 0x40400000 2) = true ∧ ranksBefore (mkCell 0x80000000 3) (mkCell 0 4) = true ∧
    ranksBefore (mkCell 0 4) (mkCell 0x80000000 3) = false ∧ ranksBefore (mkCell 0x7FC00000 1) (mkCell 0 4) = false ∧
    ranksBefore (mkCell 0 4) (mkCell 0x7FC00000 1) = true := by decide +kernel

-- the whole machine

/-- A bundle whose only form is `li s31`, about to issue. -/
def sBad : State := (State.reset.withFetchWord 32 0x8BE00000).atEvent { core := 0 }

theorem test_meets_traps_at_issue : (Instr.li 31 0).wf = false ∧ select sBad 0 = some (0, 1) ∧
    (let s1 := sBad.modCore 0 (fun c => { c with selCtx := 0, selHeld := 1 })
     let b := bundleOf 0 0x8BE00000 0 0 0 0 0 0
     let u := openFrame s1 0 0 b
     fetch s1 0 0 = some { bits := b } ∧ issueCause u 0 0 { bits := b } (executes (hdrOf b) u.frame.old) = 1 ∧
      illegalStatic u 0 0 b = true ∧ indexPoisoned u 0 b = false) ∧
    (let s := sB id id (fun a => { a with s := [(1, 0x0100000000000000), (2, 0x00FF000000000001)] }) id
     2 ^ 56 ≤ s.eaX 1 0 ∧ s.eaX 2 0 < 2 ^ 56 ∧ s.eaX 2 0 % 2 ≠ 0) := by decide +kernel

theorem test_meets_memory_reads_back : Memory.wf [(0, 1), (5, 255)] = true ∧ Memory.wf [] = true ∧ (256 : Nat) ^ 2 - 1 < 2 ^ (8 * 2) := by decide +kernel

theorem test_meets_decode_of_encode : (Instr.addi 6 6 1).wf = true ∧ slotOf (.addi 6 6 1) ≠ .step ∧ (Instr.vadd (ent 0 0 1 2 63 0 0 0)).wf = true := by
  decide +kernel

theorem test_meets_steps_keep_memory : State.reset.memWf ∧ ∃ t, step (State.reset.withFetchWord 32 0) = .next t := by
  refine ⟨by unfold State.memWf Core.memWf; decide +kernel, _, rfl⟩

theorem test_meets_the_stops : ({ State.reset with pkgs := [] } : State).dark = true ∧ State.reset.dark = false ∧ State.reset.misplaced = false ∧
    ({ State.reset with agenda := [(.nop, {})] } : State).misplaced = true := by decide +kernel

end Sys2Proof.Tests
end

section
/-!
PROOF. Scalar register forms. A write of one scalar register changes that register and the cycle from which it is usable, and nothing else
(R12, R14, R15); the values of the integer, multiply and divide forms are those of R43, R99 and R100.
-/

namespace Sys2Proof

/-- A number that has been removed reads the default. -/
@[simp] theorem Tbl.get_erase_same {α : Type} (t : Tbl α) (k : Nat) (d : α) : (t.erase k).get k d = d := by
  simp [Tbl.get_eq, Tbl.find_erase]

namespace Machine

-- a change of the registers of the context whose bundle is performed

@[simp] theorem State.me_arch_arch (s : State) (f : Arch → Arch) : (s.arch f).me.arch = f s.me.arch :=
  congrArg Ctx.arch (State.ctx_modCtx_same ..)

/-- Two changes that give the context the same registers give the same state. -/
theorem State.arch_congr {s : State} {f g : Arch → Arch} (h : f s.me.arch = g s.me.arch) : s.arch f = s.arch g :=
  congrArg (fun a => s.setCtx s.frame.core s.frame.ctx { s.me with arch := a }) h

theorem State.core_arch_spad (s : State) (f : Arch → Arch) (k : Nat) : ((s.arch f).core k).spad = (s.core k).spad := by
  simp only [State.arch, State.modArch, State.modCtx, State.setCtx, State.core_setCore]
  split
  · next h => subst h; rfl
  · rfl

theorem SameMemory.arch (s : State) (f : Arch → Arch) : SameMemory s (s.arch f) :=
  ⟨fun _ => rfl, fun k a => by rw [State.core_arch_spad]⟩

-- a write of one scalar register

/-- The registers after `v` is written to scalar register `n`, the cycles of use being `ready`; s0 takes no write (R14). -/
def Arch.putS (a : Arch) (n : Nat) (v : Word) (ready : Tbl Nat) : Arch :=
  if n = 0 then a else { a with s := a.s.set n v, sReady := ready }

theorem Arch.writeS_eq_putS (a : Arch) (n : Nat) (v : Word) : a.writeS n v = a.putS n v (a.sReady.erase n) := rfl

theorem Arch.writeLate_eq_putS (a : Arch) (n : Nat) (v : Word) (cycle : Nat) :
    a.writeLate n v cycle = a.putS n v (a.sReady.set n cycle) := rfl

/-- R14: the written register reads the value, every other one what it held; s0 and s31 read 0 and the LDQ's head. -/
theorem Arch.readS_putS (a : Arch) (n : Nat) (v : Word) (ready : Tbl Nat) (m : Nat) :
    (a.putS n v ready).readS m = if m = n ∧ m ≠ 0 ∧ m ≠ 31 then v else a.readS m := by
  by_cases hn : n = 0
  · simp +contextual [Arch.putS, hn]
  by_cases h0 : m = 0
  · simp [Arch.readS, h0]
  by_cases h31 : m = 31
  · simp [Arch.readS, Arch.putS, Arch.ldqHead, h31, hn]
  · simp [Arch.readS, Arch.putS, hn, h0, h31, Tbl.get_set, eq_comm (a := n)]

theorem Arch.sReady_putS {a : Arch} {n : Nat} (v : Word) (ready : Tbl Nat) (h : n ≠ 0) : (a.putS n v ready).sReady = ready := by
  simp [Arch.putS, h]

/-- A write of one scalar register leaves every other part of the registers. -/
theorem Arch.putS_frame (a : Arch) (n : Nat) (v : Word) (ready : Tbl Nat) :
    a.putS n v ready = { a with s := (a.putS n v ready).s, sReady := (a.putS n v ready).sReady } := by
  unfold Arch.putS; split <;> rfl

/-- R12, R14: a form that answers with one scalar register put writes that register and nothing else. -/
theorem WritesS.of_putS {i : Instr} {s : State} {d : BitVec 5} {v : Word} {ready : Nat} {f : Arch → Arch} {r : Tbl Nat}
    (hexec : exec i s = .next (s.arch f)) (hf : f s.me.arch = s.me.arch.putS d.toNat v r) (hr : r.get d.toNat 0 = ready) :
    WritesS i s d v ready := by
  refine ⟨_, hexec, fun q => ?written, fun hd => ?usable, ?frame, SameMemory.arch s f⟩
  case written =>
    simp [State.nowS, hf, Arch.readS_putS, BitVec.toNat_eq]
  case usable =>
    have hn : d.toNat ≠ 0 := fun h => hd (BitVec.eq_of_toNat_eq h)
    rw [State.me_arch_arch, hf, Arch.sReady_putS v r hn, hr]
  case frame =>
    refine State.arch_congr ?_
    rw [State.me_arch_arch, hf]
    exact Arch.putS_frame ..

/-- R14: a form that writes `d` for the next bundle. -/
theorem WritesS.of_dstS {i : Instr} {s : State} {d : BitVec 5} {u v : Word} (hexec : exec i s = .next (s.dstS d u)) (hv : u = v) :
    WritesS i s d v 0 := by
  subst hv
  exact .of_putS hexec (Arch.writeS_eq_putS ..) (Tbl.get_erase_same ..)

/-- R15: a form that writes `d` for the bundle issued `dist` cycles later. -/
theorem WritesS.of_dstLate {i : Instr} {s : State} {d : BitVec 5} {u v : Word} {dist : Nat}
    (hexec : exec i s = .next (s.dstLate d u dist)) (hv : u = v) : WritesS i s d v ((s.core s.frame.core).cycle + dist) := by
  subst hv
  exact .of_putS hexec (Arch.writeLate_eq_putS ..) (Tbl.get_set_same ..)

-- the values of the forms

/-- R100: the arithmetic right shift is the floor of the quotient by the power of two. -/
theorem sshiftRight_eq_ofInt_div (x : Word) (n : Nat) : x.sshiftRight n = BitVec.ofInt 64 (x.toInt / 2 ^ n) := by
  rw [BitVec.sshiftRight, Int.shiftRight_eq_div_pow, Int.natCast_pow, Int.cast_ofNat_Int]

/-- R99, R100: a rotation by fewer than 64 bits joins what stays with what is shifted out. -/
theorem rotateLeft_shamt (x y : Word) : x.rotateLeft (shamt y) = x <<< shamt y ||| x >>> (64 - shamt y) := by
  rw [BitVec.rotateLeft_def, shamt, Nat.mod_mod]

theorem minS_eq_ofInt (x y : Word) : minS x y = BitVec.ofInt 64 (min x.toInt y.toInt) := by
  simp only [minS, Int.min_def, apply_ite (BitVec.ofInt 64), BitVec.ofInt_toInt, BitVec.sle_iff_toInt_le]

theorem maxS_eq_ofInt (x y : Word) : maxS x y = BitVec.ofInt 64 (max x.toInt y.toInt) := by
  simp only [maxS, Int.max_def, apply_ite (BitVec.ofInt 64), BitVec.ofInt_toInt, BitVec.sle_iff_toInt_le]

theorem minU_eq_ofNat (x y : Word) : minU x y = BitVec.ofNat 64 (min x.toNat y.toNat) := by
  simp only [minU, Nat.min_def, apply_ite (BitVec.ofNat 64), BitVec.ofNat_toNat, BitVec.setWidth_eq, BitVec.le_def]

theorem maxU_eq_ofNat (x y : Word) : maxU x y = BitVec.ofNat 64 (max x.toNat y.toNat) := by
  simp only [maxU, Nat.max_def, apply_ite (BitVec.ofNat 64), BitVec.ofNat_toNat, BitVec.setWidth_eq, BitVec.le_def]

/-- The low half of the product, wrapping. -/
theorem mul_eq_ofNat (x y : Word) : x * y = BitVec.ofNat 64 (x.toNat * y.toNat) := by
  simp [BitVec.ofNat_mul]

/-- R100: the high half of the exact product of two unsigned words. -/
theorem mulHighU_eq_ofNat (x y : Word) : mulHighU x y = BitVec.ofNat 64 (x.toNat * y.toNat / 2 ^ 64) := by
  have hprod : (x.setWidth 128 * y.setWidth 128).toNat = x.toNat * y.toNat := by
    have hlt : x.toNat * y.toNat < 2 ^ 128 := BitVec.toNat_mul_toNat_lt
    rw [BitVec.toNat_mul, BitVec.toNat_setWidth_of_le (by decide), BitVec.toNat_setWidth_of_le (by decide), Nat.mod_eq_of_lt hlt]
  rw [mulHighU, BitVec.extractLsb', hprod, Nat.shiftRight_eq_div_pow]

/-- The product of two signed words fits in 128 bits. -/
theorem toInt_mul_signExtend (x y : Word) : (x.signExtend 128 * y.signExtend 128).toInt = x.toInt * y.toInt := by
  have hle : x.toInt * y.toInt ≤ 2 ^ 126 := BitVec.toInt_mul_toInt_le
  have hge : -2 ^ 126 ≤ x.toInt * y.toInt := BitVec.le_toInt_mul_toInt
  rw [BitVec.toInt_mul, BitVec.toInt_signExtend_of_le (by decide), BitVec.toInt_signExtend_of_le (by decide)]
  exact Int.bmod_eq_of_le (by omega) (by omega)

/-- The high half of a signed number of 128 bits is the floor of its quotient by `2 ^ 64`. -/
theorem extractLsb'_high_eq_ofInt (z : BitVec 128) : z.extractLsb' 64 64 = BitVec.ofInt 64 (z.toInt / 2 ^ 64) := by
  apply BitVec.eq_of_toNat_eq
  rw [BitVec.extractLsb'_toNat, Nat.shiftRight_eq_div_pow, BitVec.toNat_ofInt, BitVec.toInt_eq_toNat_cond]
  split <;> omega

/-- R100: the high half of the exact product of two signed words. -/
theorem mulHighS_eq_ofInt (x y : Word) : mulHighS x y = BitVec.ofInt 64 (x.toInt * y.toInt / 2 ^ 64) := by
  rw [mulHighS, extractLsb'_high_eq_ofInt, toInt_mul_signExtend]

theorem divU_eq_ofNat (x y : Word) : divU x y = if y = 0 then BitVec.allOnes 64 else BitVec.ofNat 64 (x.toNat / y.toNat) := by
  simp [divU, BitVec.udiv_def]

theorem remU_eq_ofNat (x y : Word) : remU x y = if y = 0 then x else BitVec.ofNat 64 (x.toNat % y.toNat) := by
  simp [remU, BitVec.umod_def]

end Machine

end Sys2Proof

open Sys2Proof Sys2Proof.Machine

/-- Settles O1: each form puts one register, for the next bundle or, after a multiplication or division, for a later one; the values are
those of the lemmas above, where the model does not state them in the rule's own words. -/
theorem integerForms : Obligations.integer_forms := by
  unfold Obligations.integer_forms
  refine ⟨fun s d a b => ?next, fun s d a b => ?late⟩
  case next =>
    exact ⟨.of_dstS rfl rfl, .of_dstS rfl rfl, .of_dstS rfl rfl, .of_dstS rfl rfl, .of_dstS rfl rfl, .of_dstS rfl rfl, .of_dstS rfl rfl,
      .of_dstS rfl rfl, .of_dstS rfl (sshiftRight_eq_ofInt_div ..), .of_dstS rfl (rotateLeft_shamt ..), .of_dstS rfl (minS_eq_ofInt ..),
      .of_dstS rfl (maxS_eq_ofInt ..), .of_dstS rfl (minU_eq_ofNat ..), .of_dstS rfl (maxU_eq_ofNat ..)⟩
  case late =>
    exact ⟨.of_dstLate rfl (mul_eq_ofNat ..), .of_dstLate rfl (mulHighS_eq_ofInt ..), .of_dstLate rfl (mulHighU_eq_ofNat ..),
      .of_dstLate rfl rfl, .of_dstLate rfl (divU_eq_ofNat ..), .of_dstLate rfl rfl, .of_dstLate rfl (remU_eq_ofNat ..)⟩

end

section
/-!
PROOF. The column select unit. A stage of a `cx` writes a column from the cells that stood in it before the stage, each row by a
compare-exchange with its partner (R213); the ranking that decides it is R211's; the operation's next stage follows a cycle later (R210).
-/

namespace Sys2Proof

/-- Writing `n` consecutive numbers from `b` on: those read what was written, and every other number what it read before. -/
theorem Tbl.get_foldl_set_range {α : Type} (t : Tbl α) (f : Nat → α) (b n k : Nat) (d : α) :
    ((List.range n).foldl (fun t r => t.set (b + r) (f r)) t).get k d = if b ≤ k ∧ k < b + n then f (k - b) else t.get k d := by
  induction n with
  | zero =>
    have hempty : ¬ (b ≤ k ∧ k < b + 0) := by omega
    rw [if_neg hempty]
    rfl
  | succ n ih =>
    rw [List.range_succ, List.foldl_append, List.foldl_cons, List.foldl_nil, Tbl.get_set, ih]
    by_cases hk : b + n = k
    · subst hk; simp
    · simp only [hk, if_false]
      congr 1
      exact propext (by omega)

namespace Machine

-- the ranking

/-- R45, R211: the key of a cell is a NaN: the exponent is all ones and the fraction is not 0. -/
def KeyNaN (x : BitVec 48) : Prop := (cellKey x).toNat / 2 ^ 23 % 256 = 255 ∧ (cellKey x).toNat % 2 ^ 23 ≠ 0

/-- R211: the cases in which cell `x` ranks before cell `y`; equal keys and two NaNs rank by tag. -/
def RanksBefore (x y : BitVec 48) : Prop :=
  (¬ KeyNaN x ∧ ¬ KeyNaN y ∧
    (compareF 6 (cellKey x).toNat (cellKey y).toNat = true ∨
      compareF 0 (cellKey x).toNat (cellKey y).toNat = true ∧ x.toNat / 2 ^ 32 < y.toNat / 2 ^ 32)) ∨
  (KeyNaN y ∧ ¬ KeyNaN x) ∨ (KeyNaN x ∧ KeyNaN y ∧ x.toNat / 2 ^ 32 < y.toNat / 2 ^ 32)

/-- R45: which FP32 codes are NaN. -/
theorem val32_eq_nan_iff (b : Nat) : val32 b = .nan ↔ b / 2 ^ 23 % 256 = 255 ∧ b % 2 ^ 23 ≠ 0 := by
  have hexp : bitsOf (b % 2 ^ 32) fp32.fb fp32.eb = b / 2 ^ 23 % 256 := by simp only [bitsOf, fp32]; omega
  have hfrac : bitsOf (b % 2 ^ 32) 0 fp32.fb = b % 2 ^ 23 := by simp only [bitsOf, fp32]; omega
  simp only [val32, FloatFormat.value, hexp, hfrac]
  generalize b / 2 ^ 23 % 256 = ex
  generalize b % 2 ^ 23 = fr
  by_cases he : ex = 255
  · by_cases hf : fr = 0 <;> simp [fp32, he, hf]
  · by_cases h0 : ex = 0 <;> simp [fp32, he, h0]

theorem keyNaN_iff (x : BitVec 48) : KeyNaN x ↔ val32 (cellKey x).toNat = .nan := (val32_eq_nan_iff _).symm

theorem cellTag_ult_iff (x y : BitVec 48) : (cellTag x).ult (cellTag y) = true ↔ x.toNat / 2 ^ 32 < y.toNat / 2 ^ 32 := by
  have htag (z : BitVec 48) : (cellTag z).toNat = z.toNat / 2 ^ 32 := by
    have hz := z.isLt
    rw [cellTag, BitVec.extractLsb'_toNat, Nat.shiftRight_eq_div_pow]
    omega
  rw [BitVec.ult_eq_decide, decide_eq_true_eq, htag, htag]

/-- R47: on values that are no NaN, codes 6 and 0 of the comparison are "greater" and "equal" of the exact order. -/
theorem compareF_of_not_nan {a b : Nat} (ha : val32 a ≠ .nan) (hb : val32 b ≠ .nan) :
    compareF 6 a b = decide (0 < (val32 a).cmp (val32 b)) ∧ compareF 0 a b = ((val32 a).cmp (val32 b) == 0) := by
  unfold compareF
  split
  · next h => exact absurd h ha
  · next h _ => exact absurd h hb
  · exact ⟨rfl, rfl⟩

theorem ranksBefore_of_not_nan {x y : BitVec 48} (hx : val32 (cellKey x).toNat ≠ .nan) (hy : val32 (cellKey y).toNat ≠ .nan) :
    ranksBefore x y = (compareF 6 (cellKey x).toNat (cellKey y).toNat ||
      compareF 0 (cellKey x).toNat (cellKey y).toNat && (cellTag x).ult (cellTag y)) := by
  obtain ⟨hgt, heq⟩ := compareF_of_not_nan hx hy
  rw [hgt, heq]
  unfold ranksBefore
  split
  · next h _ => exact absurd h hx
  · next h _ => exact absurd h hx
  · next h _ => exact absurd h hy
  · rfl

/-- The model ranks cells as R211 does. -/
theorem ranksBefore_iff (x y : BitVec 48) : ranksBefore x y = true ↔ RanksBefore x y := by
  unfold RanksBefore
  rw [keyNaN_iff, keyNaN_iff, ← cellTag_ult_iff]
  by_cases hx : val32 (cellKey x).toNat = .nan
  · by_cases hy : val32 (cellKey y).toNat = .nan
    · simp [ranksBefore, hx, hy]
    · simp [ranksBefore, hx, hy]
  · by_cases hy : val32 (cellKey y).toNat = .nan
    · simp [ranksBefore, hx, hy]
    · simp [ranksBefore_of_not_nan hx hy, hx, hy]

-- a compare-exchange of two rows

/-- R213: the pair of rows whose lower one is `i` is exchanged at distance `2 ^ h`: the lower-ranking cell stands where the other belongs,
descending or ascending by bit `d` of `i`. -/
def PairSwaps (a : Arch) (c h d i : Nat) : Prop :=
  let desc : Prop := d = 6 ∨ d ≤ 5 ∧ i / 2 ^ d % 2 = 0
  (desc ∧ RanksBefore (colCell a c (i + 2 ^ h)) (colCell a c i)) ∨ (¬ desc ∧ RanksBefore (colCell a c i) (colCell a c (i + 2 ^ h)))

/-- The model's test of the pair. -/
def pairTest (a : Arch) (c h d i : Nat) : Bool :=
  if d == 6 || (decide (d ≤ 5) && i / 2 ^ d % 2 == 0) then ranksBefore (colCell a c (i + 2 ^ h)) (colCell a c i)
  else ranksBefore (colCell a c i) (colCell a c (i + 2 ^ h))

theorem pairTest_iff (a : Arch) (c h d i : Nat) : pairTest a c h d i = true ↔ PairSwaps a c h d i := by
  have hdesc : (d == 6 || (decide (d ≤ 5) && i / 2 ^ d % 2 == 0)) = true ↔ d = 6 ∨ d ≤ 5 ∧ i / 2 ^ d % 2 = 0 := by simp
  simp only [pairTest, PairSwaps, ← hdesc, ← ranksBefore_iff]
  split <;> simp [*]

/-- The lower row of the pair of row `r`. -/
def lowerRow (h r : Nat) : Nat := if r / 2 ^ h % 2 == 1 then r - 2 ^ h else r

/-- A row takes its partner's cell exactly when the pair is exchanged. -/
theorem exchange_eq (a : Arch) (c h d r : Nat) : exchange a c h d r =
    if pairTest a c h d (lowerRow h r) != (r / 2 ^ h % 2 == 1) then colCell a c (lowerRow h r + 2 ^ h) else colCell a c (lowerRow h r) :=
  rfl

/-- The row at distance `2 ^ h` above one whose bit `h` is clear has that bit set. -/
theorem partner_bit {h i : Nat} (hi : i / 2 ^ h % 2 = 0) : (i + 2 ^ h) / 2 ^ h % 2 = 1 := by
  rw [Nat.add_div_right _ (Nat.two_pow_pos h)]
  omega

/-- With a distance of at most 32, the partner of a row is one of the 64 rows. -/
theorem partner_lt {h i : Nat} (hh : h ≤ 5) (hi : i < 64) (hbit : i / 2 ^ h % 2 = 0) : i + 2 ^ h < 64 := by
  have hcases : h = 0 ∨ h = 1 ∨ h = 2 ∨ h = 3 ∨ h = 4 ∨ h = 5 := by omega
  obtain rfl | rfl | rfl | rfl | rfl | rfl := hcases <;> omega

theorem lowerRow_of_clear {h i : Nat} (hi : i / 2 ^ h % 2 = 0) : lowerRow h i = i := by
  rw [lowerRow, hi]
  rfl

theorem lowerRow_partner {h i : Nat} (hi : i / 2 ^ h % 2 = 0) : lowerRow h (i + 2 ^ h) = i := by
  rw [lowerRow, partner_bit hi, Nat.add_sub_cancel]
  rfl

theorem exchange_lower (a : Arch) (c d : Nat) {h i : Nat} (hi : i / 2 ^ h % 2 = 0) :
    exchange a c h d i = if pairTest a c h d i then colCell a c (i + 2 ^ h) else colCell a c i := by
  rw [exchange_eq, lowerRow_of_clear hi, hi]
  cases pairTest a c h d i <;> simp

theorem exchange_upper (a : Arch) (c d : Nat) {h i : Nat} (hi : i / 2 ^ h % 2 = 0) :
    exchange a c h d (i + 2 ^ h) = if pairTest a c h d i then colCell a c i else colCell a c (i + 2 ^ h) := by
  rw [exchange_eq, lowerRow_partner hi, partner_bit hi]
  cases pairTest a c h d i <;> simp

/-- R213: both rows of a pair after the compare-exchange: exchanged whole, or both as they were. -/
theorem exchange_pair (a : Arch) (c d : Nat) {h i : Nat} (hi : i / 2 ^ h % 2 = 0) :
    (PairSwaps a c h d i →
      exchange a c h d i = colCell a c (i + 2 ^ h) ∧ exchange a c h d (i + 2 ^ h) = colCell a c i) ∧
    (¬ PairSwaps a c h d i →
      exchange a c h d i = colCell a c i ∧ exchange a c h d (i + 2 ^ h) = colCell a c (i + 2 ^ h)) := by
  rw [exchange_lower a c d hi, exchange_upper a c d hi, ← pairTest_iff]
  exact ⟨fun hs => ⟨if_pos hs, if_pos hs⟩, fun hs => ⟨if_neg hs, if_neg hs⟩⟩

-- what a stage writes

/-- A column that is written whole reads what was written; the cells of every other column stay. -/
theorem colCell_setColumn (a : Arch) (c : Nat) (f : Nat → BitVec 48) (m : Nat) {r : Nat} (hr : r < 64) :
    colCell (setColumn c f a) m r = if m = c then f r else colCell a m r := by
  rw [colCell, setColumn, Tbl.get_foldl_set_range]
  by_cases hm : m = c
  · subst hm; simp [hr]
  · have hout : ¬ (64 * c ≤ 64 * m + r ∧ 64 * m + r < 64 * c + 64) := by omega
    simp only [hout, hm, if_false, colCell]

/-- Columns written one after another, each to what does not depend on the others, read what was written to them. -/
theorem colCell_foldl_setColumn (l : List Nat) (f : Nat → Nat → BitVec 48) (a : Arch) (m : Nat) {r : Nat} (hr : r < 64) :
    colCell (l.foldl (fun b c => setColumn c (f c) b) a) m r = if m ∈ l then f m r else colCell a m r := by
  induction l generalizing a with
  | nil => simp
  | cons c l ih =>
    rw [List.foldl_cons, ih, colCell_setColumn _ _ _ _ hr]
    by_cases hl : m ∈ l
    · simp [hl]
    · by_cases hm : m = c <;> simp [hl, hm]

/-- R213: a stage replaces the cells of the operation's range by those that the compare-exchange leaves, and no others. -/
theorem colCell_stageArch (o : ColOp) (a : Arch) {m r : Nat} (hm : m < 8) (hr : r < 64) :
    colCell (stageArch o a) m r = if o.lo ≤ m ∧ m ≤ o.hi then exchange a m (o.j - o.s) o.d r else colCell a m r := by
  rw [stageArch, colCell_foldl_setColumn _ _ _ _ hr]
  simp [hm]

/-- R210: the only operation in progress, when its stage is due: the stage is performed on its context's registers, and the next one,
if there is one, is due a cycle later. -/
theorem stageCore_single {k : Core} {o : ColOp} {cycle : Nat} (hops : k.colOps = [o]) (hdue : o.due ≤ cycle) :
    stageCore cycle k = { k.setCtx o.ctx { k.ctx o.ctx with arch := stageArch o (k.ctx o.ctx).arch } with
      colOps := if o.s + 1 < o.beats then [{ o with s := o.s + 1, due := o.due + 1 }] else [] } := by
  simp [stageCore, hops, hdue]

/-- A change of a core that keeps its scratchpad keeps all memory. -/
theorem SameMemory.modCore {s : State} {ck : Nat} {f : Core → Core} (h : (f (s.core ck)).spad = (s.core ck).spad) :
    SameMemory s (s.modCore ck f) := by
  refine ⟨fun _ => rfl, fun k a => ?_⟩
  rw [State.core_modCore]
  split
  · next hk => rw [h, hk]
  · rfl

end Machine

end Sys2Proof

open Sys2Proof Sys2Proof.Machine

/-- Settles O37: a single operation's stage is a change of its context's columns alone, and each pair of rows in the range follows the
compare-exchange; with j at most 5 the partner of a row is a row too. -/
theorem columnStageEvent : Obligations.column_stage_event := by
  unfold Obligations.column_stage_event
  intro s o ck cell key tag nan before h hops hdue hj
  have hstage := stageCore_single hops hdue
  have harch : (((s.modCore ck (fun k => stageCore k.cycle k)).ctx ck o.ctx).arch) = stageArch o (s.ctx ck o.ctx).arch := by
    rw [State.ctx, State.core_modCore_same, hstage]
    exact congrArg Ctx.arch (Core.ctx_setCtx_same ..)
  refine ⟨_, rfl, SameMemory.modCore ?memory, ?next, ?outside, ?inside⟩
  case memory => rw [hstage]; rfl
  case next => rw [State.core_modCore_same, hstage]
  case outside =>
    intro c i hc hi hout
    rw [harch, colCell_stageArch o _ hc hi, if_neg hout]
  case inside =>
    intro c i hc hlo hhi hi hbit
    have hpartner : i + 2 ^ h < 64 := partner_lt (Nat.le_trans (Nat.sub_le ..) hj) hi hbit
    intro k desc swap
    rw [harch, colCell_stageArch o _ hc hi, colCell_stageArch o _ hc hpartner, if_pos ⟨hlo, hhi⟩, if_pos ⟨hlo, hhi⟩]
    exact exchange_pair _ c o.d hbit

end
